-- ==== Sys2Proof/Word.lean ====
section
/-! DEFINITION. The word types of LNTSC-CORE: the widths spec/00_scope.md R5 and R6 fix. -/

namespace Sys2Proof

/-- A framebuffer element, a status code or a register number (R5, R31, R69). -/
abbrev Byte := BitVec 8

/-- A register (R31: every register is 32 bits wide on the host port). -/
abbrev Word := BitVec 32

/-- One output sample, signed two's complement (R5, R100). -/
abbrev Sample := BitVec 16

/-- A host command word (R60). -/
abbrev CommandWord := BitVec 64

end Sys2Proof
end

