-- ==== Sys2Proof/Config.lean ====
section
/-! DEFINITION. What an implementation of LNTSC-CORE fixes and the spec leaves OPEN (spec/00_scope.md R5,
spec/92_eei_decisions.md "Open parameters"). The spec lets a model take them as arguments: here they are plain data
carried in the state, which no step changes. -/

namespace Sys2Proof

/-- The two OPEN parameters of R5. -/
structure Params where
  /-- FB_CAPACITY_BYTES, the framebuffer storage available (R91): any natural number. -/
  fbCapacityBytes : Nat
  /-- CHUNK_DIV, the reciprocal of chunkFraction (R152): legal values 1 and up, default 8. -/
  chunkDiv : Nat
  deriving DecidableEq, Repr

/-- The parameters `State.reset` carries. CHUNK_DIV is the default of R5.
DESIGN CHOICE (log entry 1): FB_CAPACITY_BYTES has no default in the spec; this is 483 times the largest ACT of R89,
so that the storage check of INIT never fails for want of a larger store. No statement rests on it. -/
def Params.default : Params := { fbCapacityBytes := 483 * 14073534, chunkDiv := 8 }

end Sys2Proof
end

