-- ==== Sys2Proof/Syntax.lean ====
section
/-! DEFINITION. The nine host commands (spec/30_encoding.md R67) and the names of the registers that two of them
address (spec/10_state.md R31). -/

namespace Sys2Proof

/-- The registers of R31, each under the spec's name. -/
inductive RegName where
  | sampleRate | scanlineUs10 | syncTipUs10 | backPorchUs10 | activeUs10 | frontPorchUs10
  | vsyncLines | hsyncLines
  | spl | tip | bp | act | fp
  | status | mode | line | field | sil | err
  deriving DecidableEq, Repr

/-- A host command: one constructor per row of R67, operands in the order of the assembler syntax R74. -/
inductive Instr where
  /-- INIT (op 0x01, R134) -/
  | init
  /-- CLOSE (op 0x02, R146) -/
  | close
  /-- PUMPONCE (op 0x10, R141) -/
  | pumpOnce
  /-- RUN (op 0x11, R142) -/
  | run
  /-- STOP (op 0x12, R144) -/
  | stop
  /-- WRREG reg, data (op 0x20, R132). Any register number is an operand: R68 calls such words well-formed. -/
  | wrReg (reg : Byte) (data : Word)
  /-- RDREG reg (op 0x21, R133) -/
  | rdReg (reg : Byte)
  /-- SETPIXEL row, col, value (op 0x30, R139) -/
  | setPixel (row : BitVec 16) (col : Word) (value : Byte)
  /-- GETROW row (op 0x31, R140) -/
  | getRow (row : BitVec 16)
  deriving DecidableEq, Repr

end Sys2Proof
end

