-- ==== Sys2Proof/Machine/State.lean ====
section
/-! DEFINITION. The state of LNTSC-CORE as plain data: every register, flag and store of spec/10_state.md, the ports of
spec/44_stream_and_lifecycle.md, and the state after hardware reset (R33). -/

namespace Sys2Proof.Machine

/-! ## The values registers and ports take -/

/-- MODE, "one of VSync, HSync, Video" (R19, R70). The code 3 does not exist (R34(f), U11). -/
inductive ScanMode where
  | vsync | hsync | video
  deriving DecidableEq, Repr

/-- FIELD, "one of Odd, Even" (R21, R70). -/
inductive FieldParity where
  | even | odd
  deriving DecidableEq, Repr

/-- LIFE, the lifecycle state (R24). -/
inductive Life where
  | closed | ready | running | halted
  deriving DecidableEq, Repr

/-- The input `sink_setup` (R136). -/
inductive SinkSetup where
  | ok | openFailed | configFailed
  deriving DecidableEq, Repr

/-- What the sink does with an offered pair (R126, R151, R154, R155). -/
inductive SinkAnswer where
  /-- the sink accepts the pair -/
  | accept
  /-- the sink fails instead of accepting -/
  | fail
  /-- the sink does neither yet -/
  | stall
  deriving DecidableEq, Repr

/-- The status codes of R69, by name. -/
inductive Status where
  | ok | configError | allocationError | deviceOpenError | deviceConfigError | indexError | consistencyError | sinkError
  | badState | badCmd
  deriving DecidableEq, Repr

/-- A SETPIXEL that intervenes between the single-byte reads of a GETROW (R199). -/
structure Intervening where
  /-- the reads of the GETROW since the SETPIXEL before this one; for the first of them, since the read of column 0, which the
  GETROW makes before any SETPIXEL accepted after it (R130) -/
  reads : Nat
  row : BitVec 16
  col : Word
  value : Byte
  deriving DecidableEq, Repr

/-- One event of the total order of R51: whose turn it is, and what comes from outside the block at that turn. -/
inductive Input where
  /-- the host port accepts this command word (R130) -/
  | command (w : CommandWord)
  /-- the encoder takes its next step (R126 to R128, R143). If that step offers a pair, this is the sink's answer. -/
  | encoder (answer : SinkAnswer)
  /-- the host port accepts a GETROW of `row` and then these SETPIXELs, all served between the same two steps of the encoder
  (R130). While RUNNING they intervene between the reads of the GETROW (R49, R199). -/
  | getRowAmong (row : BitVec 16) (writes : List Intervening)
  /-- the environment drives `sink_setup` (R136) -/
  | setup (v : SinkSetup)
  /-- the reset input (R190) -/
  | reset
  deriving DecidableEq, Repr

/-- A stereo pair "(audioSample, videoSample)" (R72). -/
structure Pair where
  audio : Sample
  video : Sample
  deriving DecidableEq, Repr

/-- The payload of a response (R65). -/
inductive Payload where
  | empty
  /-- of RDREG -/
  | word (v : Word)
  /-- of GETROW, in ascending column order -/
  | bytes (bs : List Byte)
  deriving DecidableEq, Repr

/-- A response on the host port (R65), with the command it answers (none for an illegal word). -/
structure Response where
  command : Option Instr
  status : Byte
  payload : Payload
  deriving DecidableEq, Repr

/-! ## Groups of registers -/

/-- The eight configuration registers (R11, R12), numbers 0x00 to 0x07. -/
structure ConfigRegs where
  sampleRate : Word
  scanlineUs10 : Word
  syncTipUs10 : Word
  backPorchUs10 : Word
  activeUs10 : Word
  frontPorchUs10 : Word
  vsyncLines : Word
  hsyncLines : Word
  deriving DecidableEq, Repr

/-- The five timing registers SPL, TIP, BP, ACT, FP (R13 to R17), numbers 0x10 to 0x14. -/
structure Timing where
  spl : Word
  tip : Word
  bp : Word
  act : Word
  fp : Word
  deriving DecidableEq, Repr

/-- The scan state MODE, LINE, FIELD (R19 to R21), numbers 0x21 to 0x23. -/
structure Scan where
  mode : ScanMode
  line : Word
  field : FieldParity
  deriving DecidableEq, Repr

/-- The framebuffer store (R29): the elements that differ from 0, by address, addresses strictly rising. An unlisted
element reads as 0, what INIT sets every element to. -/
abbrev Memory := List Host.Cell

/-! ## The state -/

/-- The whole machine. -/
structure State where
  /-- configuration registers (R11, R12) -/
  cfg : ConfigRegs
  /-- timing registers (R13 to R17) -/
  timing : Timing
  /-- MODE, LINE, FIELD (R19 to R21) -/
  scan : Scan
  /-- SIL, pairs of the scanline in flight that the sink has accepted (R23) -/
  sil : Word
  /-- LIFE (R24) -/
  life : Life
  /-- STOP_REQ (R25) -/
  stopReq : Bool
  /-- FB_ALLOC (R27) -/
  fbAlloc : Bool
  /-- LINE_ACTIVE (R27) -/
  lineActive : Bool
  /-- RUN_MODE (R27) -/
  runMode : Bool
  /-- ERR, the error latch (R26) -/
  err : Byte
  /-- the framebuffer (R29). Nothing is listed while FB_ALLOC is 0. -/
  fb : Memory
  /-- the input `sink_setup` (R136), driven by the environment -/
  sinkSetup : SinkSetup
  /-- the OPEN parameters (R5), which no step changes -/
  params : Params
  /-- the output stream (R43), oldest pair first. The sink owns it (R30): it is kept here to be spoken about. -/
  stream : List Pair
  /-- the responses returned on the host port (R65), oldest first, kept here to be spoken about -/
  responses : List Response
  /-- the events to come in their total order (R51): the model's own field, for the choices of host, sink and
  environment, under no law (U6). -/
  inputs : List Input
  deriving DecidableEq, Repr

/-- Why a step stops: never. Every error of the spec is a response, or a halt of the encoder that leaves the host port
open (R160 to R169, R176, U13), and every command word has a defined response (R157). So there is no fault reason. -/
inductive Fault where
  deriving DecidableEq, Repr

/-- Why the model takes no step. -/
inductive Refusal where
  /-- raised by an arm of `exec` for a command that has no meaning yet (safe). No arm raises it: all nine have one. -/
  | notModelled (mnemonic : String)
  deriving DecidableEq, Repr

/-- The outcome of a step or a meaning. -/
abbrev Result := Host.Outcome State Fault Refusal

/-! ## Reset values (R33) -/

/-- The document's defaults, and 0 for the two line counts (R11, R12, R33). -/
def ConfigRegs.reset : ConfigRegs :=
  { sampleRate := 192000#32, scanlineUs10 := 635#32, syncTipUs10 := 47#32, backPorchUs10 := 59#32,
    activeUs10 := 515#32, frontPorchUs10 := 14#32, vsyncLines := 0#32, hsyncLines := 0#32 }

/-- SPL = TIP = BP = ACT = FP = 0 (R33). -/
def Timing.zero : Timing := { spl := 0#32, tip := 0#32, bp := 0#32, act := 0#32, fp := 0#32 }

/-- "mode=VSync, lineInField=0, field=Odd" (R33, R137). -/
def Scan.initial : Scan := { mode := .vsync, line := 0#32, field := .odd }

/-- The state after hardware reset: every register at the value of R33, the framebuffer not allocated, nothing emitted,
nothing answered, and no event yet to come.
DESIGN CHOICE (log entry 2): the level of the input `sink_setup`, which R136 leaves to the environment. -/
def State.reset : State :=
  { cfg := .reset, timing := .zero, scan := .initial, sil := 0#32,
    life := .closed, stopReq := false, fbAlloc := false, lineActive := false, runMode := false, err := 0#8,
    fb := [], sinkSetup := .ok, params := .default, stream := [], responses := [], inputs := [] }

end Sys2Proof.Machine
end

