-- ==== Sys2Proof/Machine/Ops.lean ====
section
/-! DEFINITION. The shared operations: the store, the framebuffer accessors, responses, the halt, hardware reset. -/

namespace Sys2Proof.Machine

/-! ## The store as a sparse list -/

/-- The byte at an address. An unlisted address reads as 0 (R29: "each element defaults to 0"). -/
def Memory.read : Memory → Nat → Byte
  | [], _ => 0#8
  | (k, b) :: rest, a => if a = k then b else Memory.read rest a

/-- Store one byte, keeping the canonical form. Storing 0 removes the entry. -/
def Memory.write : Memory → Nat → Byte → Memory
  | [], a, v => if v = 0#8 then [] else [(a, v)]
  | (k, b) :: rest, a, v =>
      if a < k then (if v = 0#8 then (k, b) :: rest else (a, v) :: (k, b) :: rest)
      else if a = k then (if v = 0#8 then rest else (a, v) :: rest)
      else (k, b) :: Memory.write rest a v

/-- Every address listed is at least `lo`, addresses strictly rise, and no listed byte is 0. -/
def Memory.wfFrom : Nat → Memory → Bool
  | _, [] => true
  | lo, (k, b) :: rest => decide (lo ≤ k) && (b != 0#8) && Memory.wfFrom (k + 1) rest

/-- The canonical form. -/
def Memory.wf (m : Memory) : Bool := Memory.wfFrom 0 m

/-! ## The framebuffer (spec/41_framebuffer.md) -/

/-- ROWS (R5). -/
abbrev rows : Nat := 483

/-- The key under which the store lists element (row, col). Columns are 32-bit numbers (R63), so no two elements share a
key and no column of one row reaches another row (R41, R44). -/
def fbKey (row col : Nat) : Nat := row * 4294967296 + col

/-- COLS, "equals the timing register ACT" (R5, R29). -/
abbrev State.cols (s : State) : Nat := s.timing.act.toNat

/-- Row `row` exists: the store is allocated and `row <= 482` (R41, R92). -/
def State.rowExists (s : State) (row : Nat) : Bool := s.fbAlloc && decide (row < rows)

/-- Element (row, col) exists (R41, R93). -/
def State.elementExists (s : State) (row col : Nat) : Bool := s.rowExists row && decide (col < s.cols)

/-- `FbRead(r, c)` (R93). None is IndexError. -/
def State.fbRead (s : State) (row col : Nat) : Option Byte :=
  if s.elementExists row col then some (s.fb.read (fbKey row col)) else none

/-- `FbWrite(r, c, v)`, which is FB.SETPIXEL (R94). None is IndexError, with nothing written. -/
def State.fbWrite (s : State) (row col : Nat) (v : Byte) : Option State :=
  if s.elementExists row col then some { s with fb := s.fb.write (fbKey row col) v } else none

/-- All the values, if all are there. -/
def allSome {α : Type} : List (Option α) → Option (List α)
  | [] => some []
  | none :: _ => none
  | some a :: rest => (allSome rest).map (a :: ·)

/-- FB.GETROW (R92): `FbRead` over the columns 0 to ACT - 1, ascending. None is IndexError. -/
def State.rowBytes (s : State) (row : Nat) : Option (List Byte) :=
  if s.rowExists row then allSome ((List.range s.cols).map (s.fbRead row)) else none

/-- Whether ALLOCATE of 483 rows of `cols` would fail with AllocationError (R90, R91). -/
def State.storageExhausted (s : State) (cols : Nat) : Bool := decide (s.params.fbCapacityBytes < rows * cols)

/-- ALLOCATE past its check (R90): every element 0, FB_ALLOC 1. -/
def State.allocate (s : State) : State := { s with fb := [], fbAlloc := true }

/-- RELEASE (R95): FB_ALLOC 0, and the contents are given up. -/
def State.release (s : State) : State := { s with fb := [], fbAlloc := false }

/-! ## Responses and errors -/

/-- The status codes (R69). -/
def Status.code : Status → Byte
  | .ok => 0x00#8
  | .configError => 0x01#8
  | .allocationError => 0x02#8
  | .deviceOpenError => 0x03#8
  | .deviceConfigError => 0x04#8
  | .indexError => 0x05#8
  | .consistencyError => 0x06#8
  | .sinkError => 0x07#8
  | .badState => 0xFE#8
  | .badCmd => 0xFF#8

/-- `respond(s, payload)` (R7, R65). -/
def State.respond (s : State) (command : Option Instr) (status : Byte) (payload : Payload) : State :=
  { s with responses := s.responses ++ [{ command, status, payload }] }

/-- The response to a command that ends with a status and no payload (R65). -/
def State.answer (s : State) (i : Instr) (status : Status) : State := s.respond (some i) status.code .empty

/-! ## The halt -/

/-- The command in progress while LIFE is RUNNING, told by RUN_MODE (R27). -/
def State.inProgress (s : State) : Instr := if s.runMode then .run else .pumpOnce

/-- A runtime error halts the encoder: the entry to the halt, as one step (R176). The command in progress responds with
the code. There is no other exception entry (R171) and no return from it but CLOSE (R178). -/
def State.halt (s : State) (e : Status) : State :=
  ({ s with err := e.code, lineActive := false, runMode := false, life := .halted }).answer s.inProgress e

/-! ## Events from outside -/

/-- Hardware reset (R190): every register to the value of R33, a scanline in flight abandoned, no response sent.
What is outside the block stays: the parameters, `sink_setup`, the pairs the sink has, the responses the host has. -/
def State.hardwareReset (s : State) : State :=
  { State.reset with
    sinkSetup := s.sinkSetup, params := s.params, stream := s.stream, responses := s.responses, inputs := s.inputs }

/-- The environment drives `sink_setup` (R136). -/
def State.driveSetup (s : State) (v : SinkSetup) : State := { s with sinkSetup := v }

/-- The next event to come is the host presenting `w` on its port (R130). -/
def State.present (s : State) (w : CommandWord) : State := { s with inputs := .command w :: s.inputs }

end Sys2Proof.Machine
end

