-- ==== Sys2Proof/Decode.lean ====
section
/-! DEFINITION. Decoding of command words and register numbers, total and rejecting by name (spec/30_encoding.md R60 to
R64, R68; spec/10_state.md R31); the encoder; the opcode table R67; the assembler syntax R74. -/

namespace Sys2Proof

/-! ## Fields of a command word (R60 to R64) -/

/-- `CW[63:56]`, the opcode. -/
def opField (w : CommandWord) : Byte := w.extractLsb' 56 8
/-- `CW[55:48]`: `reg` of format R, `value` of format P, zero in format W. -/
def highField (w : CommandWord) : Byte := w.extractLsb' 48 8
/-- `CW[47:32]`: `row` of formats P and W, zero in format R. -/
def midField (w : CommandWord) : BitVec 16 := w.extractLsb' 32 16
/-- `CW[31:0]`: `data` of format R, `col` of format P, zero in format W. -/
def lowField (w : CommandWord) : Word := w.extractLsb' 0 32
/-- `CW[55:0]`, zero in format N. -/
def bodyField (w : CommandWord) : BitVec 56 := w.extractLsb' 0 56

/-! ## The decoder -/

/-- Why a word is illegal (R68). -/
inductive Illegal where
  /-- the opcode is none of the nine assigned -/
  | unassignedOpcode
  /-- an assigned opcode with a must-be-zero bit set -/
  | nonzeroMustBeZero
  deriving DecidableEq, Repr

/-- R68: "it returns one of the nine commands with its fields, or illegal". -/
inductive Decoded where
  | command (i : Instr)
  | illegal (why : Illegal)
  deriving DecidableEq, Repr

/-- The command, provided the must-be-zero bits of its format are zero (R68). -/
def requireZero (zero : Bool) (i : Instr) : Decoded :=
  if zero then .command i else .illegal .nonzeroMustBeZero

/-- The decoder, by the opcode and the format it chooses (R60 to R64). -/
def decode (w : CommandWord) : Decoded :=
  let op := opField w
  if op = 0x01#8 then requireZero (bodyField w == 0#56) .init
  else if op = 0x02#8 then requireZero (bodyField w == 0#56) .close
  else if op = 0x10#8 then requireZero (bodyField w == 0#56) .pumpOnce
  else if op = 0x11#8 then requireZero (bodyField w == 0#56) .run
  else if op = 0x12#8 then requireZero (bodyField w == 0#56) .stop
  else if op = 0x20#8 then requireZero (midField w == 0#16) (.wrReg (highField w) (lowField w))
  else if op = 0x21#8 then requireZero (midField w == 0#16 && lowField w == 0#32) (.rdReg (highField w))
  else if op = 0x30#8 then .command (.setPixel (midField w) (lowField w) (highField w))
  else if op = 0x31#8 then requireZero (highField w == 0#8 && lowField w == 0#32) (.getRow (midField w))
  else .illegal .unassignedOpcode

/-- The decoder on a word numbered as spec/opcode_table.json numbers it: `nbits` bits of `w`, the rest zero. All commands
are one 64-bit word (R60) that crosses the port whole, with no byte order (R46). -/
def decodeTableWord (nbits w : Nat) : Option Instr :=
  match decode (BitVec.ofNat 64 (w % 2 ^ nbits)) with
  | .command i => some i
  | .illegal _ => none

/-! ## The encoder (R61 to R64), fields joined from the most significant down -/

/-- The command word of a command. -/
def encode : Instr → CommandWord
  | .init => 0x01#8 ++ 0#56
  | .close => 0x02#8 ++ 0#56
  | .pumpOnce => 0x10#8 ++ 0#56
  | .run => 0x11#8 ++ 0#56
  | .stop => 0x12#8 ++ 0#56
  | .wrReg reg data => 0x20#8 ++ reg ++ 0#16 ++ data
  | .rdReg reg => 0x21#8 ++ reg ++ 0#16 ++ 0#32
  | .setPixel row col value => 0x30#8 ++ value ++ row ++ col
  | .getRow row => 0x31#8 ++ 0#8 ++ row ++ 0#32

/-! ## The opcode table as R67 prints it -/

/-- The mnemonic of a command (R67). -/
def Instr.mnemonic : Instr → String
  | .init => "INIT"
  | .close => "CLOSE"
  | .pumpOnce => "PUMPONCE"
  | .run => "RUN"
  | .stop => "STOP"
  | .wrReg _ _ => "WRREG"
  | .rdReg _ => "RDREG"
  | .setPixel _ _ _ => "SETPIXEL"
  | .getRow _ => "GETROW"

/-- A row of R67. -/
structure OpcodeRow where
  mnemonic : String
  matchBits : CommandWord
  maskBits : CommandWord
  deriving DecidableEq, Repr

/-- R67: "a command word CW selects the row for which CW & mask == match". -/
def OpcodeRow.selects (r : OpcodeRow) (w : CommandWord) : Bool := w &&& r.maskBits == r.matchBits

/-- The nine rows of R67. -/
def opcodeTable : List OpcodeRow :=
  [ ⟨"INIT", 0x0100000000000000#64, 0xFFFFFFFFFFFFFFFF#64⟩,
    ⟨"CLOSE", 0x0200000000000000#64, 0xFFFFFFFFFFFFFFFF#64⟩,
    ⟨"PUMPONCE", 0x1000000000000000#64, 0xFFFFFFFFFFFFFFFF#64⟩,
    ⟨"RUN", 0x1100000000000000#64, 0xFFFFFFFFFFFFFFFF#64⟩,
    ⟨"STOP", 0x1200000000000000#64, 0xFFFFFFFFFFFFFFFF#64⟩,
    ⟨"WRREG", 0x2000000000000000#64, 0xFF00FFFF00000000#64⟩,
    ⟨"RDREG", 0x2100000000000000#64, 0xFF00FFFFFFFFFFFF#64⟩,
    ⟨"SETPIXEL", 0x3000000000000000#64, 0xFF00000000000000#64⟩,
    ⟨"GETROW", 0x3100000000000000#64, 0xFFFF0000FFFFFFFF#64⟩ ]

/-! ## Register numbers (R31) -/

/-- The number of a register (R31). -/
def RegName.number : RegName → Byte
  | .sampleRate => 0x00#8
  | .scanlineUs10 => 0x01#8
  | .syncTipUs10 => 0x02#8
  | .backPorchUs10 => 0x03#8
  | .activeUs10 => 0x04#8
  | .frontPorchUs10 => 0x05#8
  | .vsyncLines => 0x06#8
  | .hsyncLines => 0x07#8
  | .spl => 0x10#8
  | .tip => 0x11#8
  | .bp => 0x12#8
  | .act => 0x13#8
  | .fp => 0x14#8
  | .status => 0x20#8
  | .mode => 0x21#8
  | .line => 0x22#8
  | .field => 0x23#8
  | .sil => 0x24#8
  | .err => 0x28#8

/-- All assigned registers, in the order of R31. -/
def RegName.all : List RegName :=
  [.sampleRate, .scanlineUs10, .syncTipUs10, .backPorchUs10, .activeUs10, .frontPorchUs10, .vsyncLines, .hsyncLines,
   .spl, .tip, .bp, .act, .fp, .status, .mode, .line, .field, .sil, .err]

/-- The register a number names, none for an unassigned number (R31, R42). -/
def regOfNumber (n : Byte) : Option RegName := RegName.all.find? fun r => r.number == n

/-- The configuration registers 0x00 to 0x07, the only ones WRREG may write (R32). -/
def RegName.isConfig : RegName → Bool
  | .sampleRate | .scanlineUs10 | .syncTipUs10 | .backPorchUs10
  | .activeUs10 | .frontPorchUs10 | .vsyncLines | .hsyncLines => true
  | _ => false

/-! ## Assembler syntax (R74, R77) -/

/-- The register's name as R31 spells it. -/
def RegName.asm : RegName → String
  | .sampleRate => "SAMPLE_RATE"
  | .scanlineUs10 => "SCANLINE_US10"
  | .syncTipUs10 => "SYNCTIP_US10"
  | .backPorchUs10 => "BACKPORCH_US10"
  | .activeUs10 => "ACTIVE_US10"
  | .frontPorchUs10 => "FRONTPORCH_US10"
  | .vsyncLines => "VSYNC_LINES"
  | .hsyncLines => "HSYNC_LINES"
  | .spl => "SPL"
  | .tip => "TIP"
  | .bp => "BP"
  | .act => "ACT"
  | .fp => "FP"
  | .status => "STATUS"
  | .mode => "MODE"
  | .line => "LINE"
  | .field => "FIELD"
  | .sil => "SIL"
  | .err => "ERR"

/-- A register operand: its name where the number is assigned, else the number in decimal (R77). -/
def regAsm (n : Byte) : String :=
  match regOfNumber n with
  | some r => r.asm
  | none => toString n.toNat

/-- A command as the spec writes it: the mnemonic, then its operands separated by commas (R74). -/
def Instr.asm : Instr → String
  | .wrReg reg data => "WRREG " ++ regAsm reg ++ ", " ++ toString data.toNat
  | .rdReg reg => "RDREG " ++ regAsm reg
  | .setPixel row col value =>
      "SETPIXEL " ++ toString row.toNat ++ ", " ++ toString col.toNat ++ ", " ++ toString value.toNat
  | .getRow row => "GETROW " ++ toString row.toNat
  | i => i.mnemonic

end Sys2Proof
end

