-- ==== Sys2Proof/Machine/Flags.lean ====
section
/-! DEFINITION. The codes of the small registers, the STATUS view (spec/10_state.md R19, R21, R24, R28) and the document's
two composite error types (spec/60_exceptions.md R170). -/

namespace Sys2Proof.Machine

/-- VSync 0, HSync 1, Video 2 (R19, R70). -/
def ScanMode.code : ScanMode → BitVec 2
  | .vsync => 0#2
  | .hsync => 1#2
  | .video => 2#2

/-- Odd 1, Even 0 (R21, R70). -/
def FieldParity.bit : FieldParity → BitVec 1
  | .even => 0#1
  | .odd => 1#1

/-- FIELD toggled, `1 - FIELD` (R118). -/
def FieldParity.toggle : FieldParity → FieldParity
  | .even => .odd
  | .odd => .even

/-- CLOSED 0, READY 1, RUNNING 2, HALTED 3 (R24). -/
def Life.code : Life → BitVec 2
  | .closed => 0#2
  | .ready => 1#2
  | .running => 2#2
  | .halted => 3#2

/-- `InitError`, the error type of `init` (R170). -/
def Status.isInitError : Status → Bool
  | .configError | .allocationError | .deviceOpenError | .deviceConfigError => true
  | .ok | .indexError | .consistencyError | .sinkError | .badState | .badCmd => false

/-- `PumpError`, the error type of `pumpOnce` and `run` (R170). -/
def Status.isPumpError : Status → Bool
  | .consistencyError | .sinkError => true
  | .ok | .configError | .allocationError | .deviceOpenError | .deviceConfigError | .indexError | .badState | .badCmd =>
      false

/-- STATUS (R28): LIFE in 1:0, STOP_REQ 2, FB_ALLOC 3, LINE_ACTIVE 4, RUN_MODE 5, zeros above. It holds no state. -/
def State.statusWord (s : State) : Word :=
  0#26 ++ BitVec.ofBool s.runMode ++ BitVec.ofBool s.lineActive ++ BitVec.ofBool s.fbAlloc ++
    BitVec.ofBool s.stopReq ++ s.life.code

end Sys2Proof.Machine
end

