-- ==== Sys2Proof/Machine/Operands.lean ====
section
/-! DEFINITION. Register operands: reading and writing a register by name (spec/10_state.md R31, R32). -/

namespace Sys2Proof.Machine

/-- `reg[NAME]`, the 32 bits RDREG returns (R31). Narrow registers read with zeros above. -/
def State.readReg (s : State) : RegName → Word
  | .sampleRate => s.cfg.sampleRate
  | .scanlineUs10 => s.cfg.scanlineUs10
  | .syncTipUs10 => s.cfg.syncTipUs10
  | .backPorchUs10 => s.cfg.backPorchUs10
  | .activeUs10 => s.cfg.activeUs10
  | .frontPorchUs10 => s.cfg.frontPorchUs10
  | .vsyncLines => s.cfg.vsyncLines
  | .hsyncLines => s.cfg.hsyncLines
  | .spl => s.timing.spl
  | .tip => s.timing.tip
  | .bp => s.timing.bp
  | .act => s.timing.act
  | .fp => s.timing.fp
  | .status => s.statusWord
  | .mode => s.scan.mode.code.setWidth 32
  | .line => s.scan.line
  | .field => s.scan.field.bit.setWidth 32
  | .sil => s.sil
  | .err => s.err.setWidth 32

/-- `reg[reg] <- data` for a configuration register, all 32 bits; none for a register WRREG may not write (R31, R32). -/
def ConfigRegs.write (c : ConfigRegs) (r : RegName) (v : Word) : Option ConfigRegs :=
  match r with
  | .sampleRate => some { c with sampleRate := v }
  | .scanlineUs10 => some { c with scanlineUs10 := v }
  | .syncTipUs10 => some { c with syncTipUs10 := v }
  | .backPorchUs10 => some { c with backPorchUs10 := v }
  | .activeUs10 => some { c with activeUs10 := v }
  | .frontPorchUs10 => some { c with frontPorchUs10 := v }
  | .vsyncLines => some { c with vsyncLines := v }
  | .hsyncLines => some { c with hsyncLines := v }
  | .spl | .tip | .bp | .act | .fp | .status | .mode | .line | .field | .sil | .err => none

/-- The configuration after writing register number `reg`; none if it is read-only or unassigned (R132). -/
def ConfigRegs.writeNumber (c : ConfigRegs) (reg : Byte) (v : Word) : Option ConfigRegs :=
  (regOfNumber reg).bind fun r => c.write r v

/-- The value of register number `reg`; none if unassigned (R133). -/
def State.readNumber (s : State) (reg : Byte) : Option Word := (regOfNumber reg).map s.readReg

/-- V, the value of VSYNC_LINES (R12). -/
def ConfigRegs.v (c : ConfigRegs) : Nat := c.vsyncLines.toNat

/-- H, the value of HSYNC_LINES (R12). -/
def ConfigRegs.h (c : ConfigRegs) : Nat := c.hsyncLines.toNat

end Sys2Proof.Machine
end

