-- ==== Sys2Proof/Machine/TimingCalculator.lean ====
section
/-! DEFINITION. The timing calculator (spec/40_timing_calculator.md). -/

namespace Sys2Proof.Machine

/-- COUNT(d, f) = floor((d * f + 5000000) / 10000000), exact (R82, R83). -/
def count (d f : Nat) : Nat := (d * f + 5000000) / 10000000

/-- The five durations in tenths of a microsecond, as COMPUTETIMING reads them (R80). -/
def ConfigRegs.durations (c : ConfigRegs) : List Nat :=
  [c.scanlineUs10.toNat, c.syncTipUs10.toNat, c.backPorchUs10.toNat, c.activeUs10.toNat, c.frontPorchUs10.toNat]

/-- The largest legal duration (R81). -/
abbrev maxDuration : Nat := 65535

/-- The counts at rate `f`, before the checks on them (R80). R89 shows that they fit the registers. -/
def ConfigRegs.countsAt (c : ConfigRegs) (f : Nat) : Timing :=
  { spl := BitVec.ofNat 32 (count c.scanlineUs10.toNat f)
    tip := BitVec.ofNat 32 (count c.syncTipUs10.toNat f)
    bp := BitVec.ofNat 32 (count c.backPorchUs10.toNat f)
    act := BitVec.ofNat 32 (count c.activeUs10.toNat f)
    fp := BitVec.ofNat 32 (count c.frontPorchUs10.toNat f) }

/-- TIP + BP + ACT + FP. -/
def Timing.segmentSum (t : Timing) : Nat := t.tip.toNat + t.bp.toNat + t.act.toNat + t.fp.toNat

/-- `ValidTiming` (R18): each count at least 1, and the segments sum to SPL within one (R84, R85). -/
def Timing.valid (t : Timing) : Bool :=
  decide (1 ≤ t.spl.toNat) && decide (1 ≤ t.tip.toNat) && decide (1 ≤ t.bp.toNat) && decide (1 ≤ t.act.toNat) &&
    decide (1 ≤ t.fp.toNat) && decide (t.segmentSum ≤ t.spl.toNat + 1) && decide (t.spl.toNat ≤ t.segmentSum + 1)

/-- COMPUTETIMING (R80). None is ConfigError. SAMPLE_RATE is read as a signed number (R66, R81). -/
def ConfigRegs.computeTiming (c : ConfigRegs) : Option Timing :=
  let f := c.sampleRate.toInt
  if f ≤ 0 then none
  else if c.durations.any fun d => decide (maxDuration < d) then none
  else if (c.countsAt f.toNat).valid then some (c.countsAt f.toNat)
  else none

/-- The largest legal line count (R12). -/
abbrev maxLines : Nat := 65535

/-- The line counts INIT accepts: V from 1 to 65535, H at most 65535 (R12, R135). -/
def ConfigRegs.linesLegal (c : ConfigRegs) : Bool :=
  decide (1 ≤ c.v) && decide (c.v ≤ maxLines) && decide (c.h ≤ maxLines)

end Sys2Proof.Machine
end

