-- ==== Sys2Proof/Machine/Lifecycle.lean ====
section
/-! DEFINITION. INIT and CLOSE (spec/44_stream_and_lifecycle.md sections 3 and 5). -/

namespace Sys2Proof.Machine

/-- The outcome of INIT's checks, in the order of R134, R135 and R173: the first that fails is reported. -/
inductive InitCheck where
  | pass (t : Timing)
  | error (e : Status)
  deriving DecidableEq, Repr

/-- INIT's checks (R134): line counts and timing, then storage, then the sink. -/
def State.initCheck (s : State) : InitCheck :=
  if s.cfg.linesLegal then
    match s.cfg.computeTiming with
    | none => .error .configError
    | some t =>
        if s.storageExhausted t.act.toNat then .error .allocationError
        else
          match s.sinkSetup with
          | .openFailed => .error .deviceOpenError
          | .configFailed => .error .deviceConfigError
          | .ok => .pass t
  else .error .configError

/-- The state a successful INIT leaves, before its response (R134, R137). The stream is counted from here (R43). -/
def State.opened (s : State) (t : Timing) : State :=
  { s.allocate with
    timing := t, scan := .initial, sil := 0#32, stopReq := false, err := 0#8, lineActive := false, runMode := false,
    life := .ready, stream := [] }

/-- INIT (R134, R138). -/
def execInit (s : State) : Result :=
  match s.life with
  | .ready | .running | .halted => .next (s.answer .init .badState)
  | .closed =>
      match s.initCheck with
      | .error e => .next (s.answer .init e)
      | .pass t => .next ((s.opened t).answer .init .ok)

/-- The state CLOSE leaves, before its response (R146): reset values but for the configuration registers (R194). -/
def State.tornDown (s : State) : State :=
  { s.release with
    timing := .zero, scan := .initial, sil := 0#32, stopReq := false, err := 0#8, lineActive := false, runMode := false,
    life := .closed }

/-- CLOSE (R146 to R148). -/
def execClose (s : State) : Result :=
  match s.life with
  | .running => .next (s.answer .close .badState)
  | .closed | .ready | .halted => .next (s.tornDown.answer .close .ok)

end Sys2Proof.Machine
end

