-- ==== Sys2Proof/Machine/Picture.lean ====
section
/-! DEFINITION. SETPIXEL and GETROW (spec/44_stream_and_lifecycle.md section 4). -/

namespace Sys2Proof.Machine

/-- The machine after SETPIXEL (R139). -/
def State.setPixel (s : State) (row : BitVec 16) (col : Word) (value : Byte) : State :=
  match s.life with
  | .closed => s.answer (.setPixel row col value) .badState
  | .ready | .running | .halted =>
      match s.fbWrite row.toNat col.toNat value with
      | none => s.answer (.setPixel row col value) .indexError
      | some t => t.answer (.setPixel row col value) .ok

/-- SETPIXEL (R139). -/
def execSetPixel (row : BitVec 16) (col : Word) (value : Byte) (s : State) : Result := .next (s.setPixel row col value)

/-- The response to a GETROW outside CLOSED: the row's bytes, or IndexError (R140). -/
def State.answerRow (s : State) (row : BitVec 16) (bytes : Option (List Byte)) : State :=
  match bytes with
  | none => s.answer (.getRow row) .indexError
  | some bs => s.respond (some (.getRow row)) Status.ok.code (.bytes bs)

/-- The machine after GETROW (R140). -/
def State.getRow (s : State) (row : BitVec 16) : State :=
  match s.life with
  | .closed => s.answer (.getRow row) .badState
  | .ready | .running | .halted => s.answerRow row (s.rowBytes row.toNat)

/-- GETROW (R140), with no SETPIXEL between its reads: served and answered at one point of the total order (R130, R150). -/
def execGetRow (row : BitVec 16) (s : State) : Result := .next (s.getRow row)

/-! ## A GETROW while RUNNING, with SETPIXELs between its reads (R49, R199; log entry 11) -/

/-- The machine after an intervening SETPIXEL. -/
def State.intervene (s : State) (w : Intervening) : State := s.setPixel w.row w.col w.value

/-- The machine after these SETPIXELs in turn. -/
def State.interveneAll (s : State) (writes : List Intervening) : State := writes.foldl State.intervene s

/-- What a GETROW reads from column `next` on: "ACT single-byte reads in ascending column order" (R49), each of the store as
it is then, the SETPIXELs between them. None is IndexError. -/
def State.rowBytesFrom (row : Nat) : List Intervening → Nat → State → Option (List Byte)
  | [], next, s => (s.rowBytes row).map (·.drop next)
  | w :: writes, next, s =>
      match s.rowBytes row, State.rowBytesFrom row writes (next + w.reads) (s.intervene w) with
      | some bs, some later => some ((bs.drop next).take w.reads ++ later)
      | _, _ => none

/-- All that a GETROW reads with these SETPIXELs between its reads. They are accepted after it, so its first read, of column
0, comes before them all (R130). -/
def State.rowBytesAmong (row : Nat) (writes : List Intervening) (s : State) : Option (List Byte) :=
  match s.rowBytes row, State.rowBytesFrom row writes 1 s with
  | some bs, some later => some (bs.take 1 ++ later)
  | _, _ => none

/-- The port serves a GETROW and then these SETPIXELs, answering each in the order accepted, all between the same two steps of
the encoder (R130, R150). A SETPIXEL accepted before the GETROW is seen by all its reads (R53). While RUNNING the GETROW has
"no guarantee" of one moment of the store (R49): its reads after the first may see SETPIXELs accepted right after it. In the
other states it is atomic. -/
def State.getRowAmong (s : State) (row : BitVec 16) (writes : List Intervening) : State :=
  match s.life with
  | .closed | .ready | .halted => (s.getRow row).interveneAll writes
  | .running => (s.answerRow row (State.rowBytesAmong row.toNat writes s)).interveneAll writes

end Sys2Proof.Machine
end

