-- ==== Sys2Proof/Machine/RegisterAccess.lean ====
section
/-! DEFINITION. WRREG and RDREG (spec/44_stream_and_lifecycle.md section 2). -/

namespace Sys2Proof.Machine

/-- WRREG (R132): BADCMD, then BADSTATE, then the write. -/
def execWrReg (reg : Byte) (data : Word) (s : State) : Result :=
  match s.cfg.writeNumber reg data with
  | none => .next (s.answer (.wrReg reg data) .badCmd)
  | some cfg =>
      match s.life with
      | .closed => .next (({ s with cfg := cfg }).answer (.wrReg reg data) .ok)
      | .ready | .running | .halted => .next (s.answer (.wrReg reg data) .badState)

/-- RDREG (R133): accepted in every lifecycle state, and without side effect. -/
def execRdReg (reg : Byte) (s : State) : Result :=
  match s.readNumber reg with
  | none => .next (s.answer (.rdReg reg) .badCmd)
  | some v => .next (s.respond (some (.rdReg reg)) Status.ok.code (.word v))

end Sys2Proof.Machine
end

