-- ==== Sys2Proof/Machine/Streaming.lean ====
section
/-! DEFINITION. PUMPONCE, RUN and STOP (spec/44_stream_and_lifecycle.md section 5). PUMPONCE and RUN start the encoder, whose
steps follow one at a time and between which the host port serves further commands (R130); their responses come when the
encoder is done (R150: `State.afterLine`, `State.runStopped`, `State.halt`). -/

namespace Sys2Proof.Machine

/-- PUMPONCE, up to where its scanline may start (R141, R149). -/
def execPumpOnce (s : State) : Result :=
  match s.life with
  | .closed | .running => .next (s.answer .pumpOnce .badState)
  | .halted => .next (s.respond (some .pumpOnce) s.err .empty)
  | .ready => .next { s with life := .running, runMode := false }

/-- RUN, up to its first scanline boundary (R142, R149). -/
def execRun (s : State) : Result :=
  match s.life with
  | .closed | .running => .next (s.answer .run .badState)
  | .halted => .next (s.respond (some .run) s.err .empty)
  | .ready => .next { s with life := .running, runMode := true }

/-- STOP (R144, R145). -/
def execStop (s : State) : Result :=
  match s.life with
  | .closed => .next (s.answer .stop .badState)
  | .ready | .running | .halted => .next (({ s with stopReq := true }).answer .stop .ok)

end Sys2Proof.Machine
end

