-- ==== Sys2Proof/Machine/Dispatch.lean ====
section
/-! DEFINITION. One arm per host command. -/

namespace Sys2Proof.Machine

def exec (i : Instr) (s : State) : Host.Outcome State Fault Refusal :=
  match i with
  | .init => Sys2Proof.Machine.execInit s
  | .close => Sys2Proof.Machine.execClose s
  | .pumpOnce => Sys2Proof.Machine.execPumpOnce s
  | .run => Sys2Proof.Machine.execRun s
  | .stop => Sys2Proof.Machine.execStop s
  | .wrReg reg data => Sys2Proof.Machine.execWrReg reg data s
  | .rdReg reg => Sys2Proof.Machine.execRdReg reg s
  | .setPixel row col value => Sys2Proof.Machine.execSetPixel row col value s
  | .getRow row => Sys2Proof.Machine.execGetRow row s

end Sys2Proof.Machine
end

