-- ==== Sys2Proof/Machine/SampleGenerator.lean ====
section
/-! DEFINITION. The composite sample generator (spec/42_sample_generator.md) and the row a Video scanline reads
(spec/43_scanline_encoder.md R115). -/

namespace Sys2Proof.Machine

/-- BLACK_LEVEL (R100). -/
def blackLevel : Sample := 9830#16
/-- WHITE_LEVEL (R100). -/
def whiteLevel : Sample := 32767#16
/-- BLANK_LEVEL (R100). -/
def blankLevel : Sample := 0#16

/-- LUMA(p) = 9830 + floor(22937 * p / 255): multiply, then divide truncating, then add (R102, R103). -/
def luma (p : Byte) : Sample := BitVec.ofNat 16 (9830 + 22937 * p.toNat / 255)

/-- The four segments of a scanline (R105). -/
inductive Segment where
  | syncTip | backPorch | activeVideo | frontPorch
  deriving DecidableEq, Repr

/-- SEG(s) (R105). FrontPorch takes what is left of the scanline, not FP (R106). -/
def Timing.segmentAt (t : Timing) (i : Nat) : Segment :=
  if i < t.tip.toNat then .syncTip
  else if i < t.tip.toNat + t.bp.toNat then .backPorch
  else if i < t.tip.toNat + t.bp.toNat + t.act.toNat then .activeVideo
  else .frontPorch

/-- P, picture lines per field (R5, R116). -/
abbrev pictureLines : Nat := 241

/-- `lineIndex` = 2 * (LINE - V - H) + FIELD (R115). It is defined only where LINE has reached the picture lines. -/
def State.lineIndex (s : State) : Option Nat :=
  if s.cfg.v + s.cfg.h ≤ s.scan.line.toNat then
    some (2 * (s.scan.line.toNat - s.cfg.v - s.cfg.h) + s.scan.field.bit.toNat)
  else none

/-- The framebuffer element that sample `i` of the present scanline reads: one in the ActiveVideo segment of a Video
scanline, none elsewhere (R52, R57, R107). -/
def State.elementRead (s : State) (i : Nat) : Option (Option Nat × Nat) :=
  match s.scan.mode, s.timing.segmentAt i with
  | .video, .activeVideo => some (s.lineIndex, i - s.timing.tip.toNat - s.timing.bp.toNat)
  | _, _ => none

/-- The level of a sample that reads no framebuffer element (R107, R108): the sync tip at BLACK_LEVEL, all else at
BLANK_LEVEL. -/
def Segment.fixedLevel : Segment → Sample
  | .syncTip => blackLevel
  | .backPorch | .activeVideo | .frontPorch => blankLevel

/-- VIDEO_SAMPLE(MODE, i) (R107). None where the element to read does not exist (R41, R117). -/
def State.videoSample (s : State) (i : Nat) : Option Sample :=
  match s.elementRead i with
  | none => some (s.timing.segmentAt i).fixedLevel
  | some (none, _) => none
  | some (some row, c) => (s.fbRead row c).map luma

/-- PAIR: the audio sample 0, then the video sample (R101, R109). -/
def State.pairAt (s : State) (i : Nat) : Option Pair := (s.videoSample i).map fun v => { audio := 0#16, video := v }

end Sys2Proof.Machine
end

