-- ==== Sys2Proof/Machine/Encoder.lean ====
section
/-! DEFINITION. The scanline encoder (spec/43_scanline_encoder.md): PRODUCE, ADVANCE, LINESTEP, and the same one sample at
a time. -/

namespace Sys2Proof.Machine

/-! ## ADVANCE -/

/-- ADVANCE (R118) on the scan state, for V = `v`, H = `h`. -/
def Scan.advance (v h : Nat) (x : Scan) : Scan :=
  let n := x.line.toNat + 1
  if n < v then { x with line := BitVec.ofNat 32 n, mode := .vsync }
  else if n < v + h then { x with line := BitVec.ofNat 32 n, mode := .hsync }
  else if n < v + h + pictureLines then { x with line := BitVec.ofNat 32 n, mode := .video }
  else { mode := .vsync, line := 0#32, field := x.field.toggle }

/-- ADVANCE of the machine (R118): MODE, LINE, FIELD only. -/
def State.advance (s : State) : State := { s with scan := s.scan.advance s.cfg.v s.cfg.h }

/-! ## PRODUCE -/

/-- The bounds check at the start of a Video scanline fails: `lineIndex > 482`, or there is no lineIndex (R117, R166). -/
def State.rowOutOfBounds (s : State) : Bool :=
  match s.scan.mode with
  | .vsync | .hsync => false
  | .video =>
      match s.lineIndex with
      | some row => decide (rows ≤ row)
      | none => true

/-- PRODUCE (R110): the SPL pairs of the present scanline, ascending. None is ConsistencyError, before the first pair. -/
def State.produce (s : State) : Option (List Pair) :=
  if s.rowOutOfBounds then none else allSome ((List.range s.timing.spl.toNat).map s.pairAt)

/-- The framebuffer elements the present scanline reads, in order (R52, R57). -/
def State.scanlineReads (s : State) : List (Option Nat × Nat) :=
  (List.range s.timing.spl.toNat).filterMap s.elementRead

/-! ## The steps of the encoder -/

/-- Line start (R127): the bounds check, then LINE_ACTIVE 1 with SIL 0. "No pair is emitted by the start itself". A command
may be served between it and the scanline's first accepted pair (R130), for one while the sink stalls on that pair (R154).
DEDUCED (log entry 19): a STOP served there is followed by the SPL pairs of its scanline, the one on offer and SPL - 1 more,
where R201 says up to SPL - 1 more; R172 bounds the latency by "one scanline". -/
def State.lineStart (s : State) : State :=
  if s.rowOutOfBounds then s.halt .consistencyError else { s with lineActive := true, sil := 0#32 }

/-- SAMPLESTEP (R126): offer the pair of sample SIL; the sink accepts it, fails (R155), or does neither (R154). -/
def State.sampleStep (s : State) (answer : SinkAnswer) : State :=
  match s.pairAt s.sil.toNat with
  | none => s.halt .consistencyError
  | some p =>
      match answer with
      | .accept => { s with stream := s.stream ++ [p], sil := s.sil + 1#32 }
      | .fail => s.halt .sinkError
      | .stall => s

/-- A PUMPONCE is done after its one scanline: READY, response OK (R141). A RUN goes on (R142). -/
def State.afterLine (s : State) : State :=
  if s.runMode then s else ({ s with life := .ready }).answer .pumpOnce .ok

/-- Line end (R128): ADVANCE, SIL 0, LINE_ACTIVE 0, as one step; it also ends a PUMPONCE. -/
def State.lineEnd (s : State) : State := ({ s.advance with sil := 0#32, lineActive := false }).afterLine

/-- A RUN honours a stop request at a scanline boundary (R142, R143). -/
def State.runStopped (s : State) : State :=
  ({ s with stopReq := false, runMode := false, life := .ready }).answer .run .ok

/-- One step of the encoder. It takes none unless LIFE is RUNNING (R24, R179). -/
def State.encoderStep (s : State) (answer : SinkAnswer) : State :=
  match s.life with
  | .closed | .ready | .halted => s
  | .running =>
      if s.lineActive then
        if s.sil.toNat < s.timing.spl.toNat then s.sampleStep answer else s.lineEnd
      else if s.runMode && s.stopReq then s.runStopped
      else s.lineStart

/-- LINESTEP with a sink that accepts every pair (R125): the whole scanline, then ADVANCE, as one. -/
def State.lineStep (s : State) : State :=
  match s.produce with
  | none => s.halt .consistencyError
  | some pairs => ({ s with stream := s.stream ++ pairs }).lineEnd

end Sys2Proof.Machine
end

