-- ==== Sys2Proof/Machine/HostPort.lean ====
section
/-! DEFINITION. The host port and the events of the total order (spec/44_stream_and_lifecycle.md R130,
spec/20_memory.md R51). -/

namespace Sys2Proof.Machine

/-- The port serves one command word (R130). An illegal word changes nothing and is answered with BADCMD (R68). -/
def serve (w : CommandWord) (s : State) : Result :=
  match decode w with
  | .command i => exec i s
  | .illegal _ => .next (s.respond none Status.badCmd.code .empty)

/-- One event takes effect. -/
def takeEvent (e : Input) (s : State) : Result :=
  match e with
  | .command w => serve w s
  | .encoder answer => .next (s.encoderStep answer)
  | .getRowAmong row writes => .next (s.getRowAmong row writes)
  | .setup v => .next (s.driveSetup v)
  | .reset => .next s.hardwareReset

/-- The next event of the total order takes effect (R51). With none to come, nothing changes (R154, R190). -/
def nextEvent (s : State) : Result :=
  match s.inputs with
  | [] => .next s
  | e :: rest => takeEvent e { s with inputs := rest }

end Sys2Proof.Machine
end

