-- ==== Sys2Proof/Machine/Step.lean ====
section
/-! DEFINITION. The step of the machine, and where it finds its next command. -/

namespace Sys2Proof.Machine

/-- One step: the next event of the total order (R51). -/
def step (s : State) : Host.Outcome State Fault Refusal := nextEvent s

/-- The command word `w` (its bits above `nbits` zero) is what the host port accepts next. -/
def State.withFetchWord (s : State) (nbits w : Nat) : State := s.present (BitVec.ofNat 64 (w % 2 ^ nbits))

end Sys2Proof.Machine
end

