-- ==== Sys2Proof/Machine/Calls.lean ====
section
/-! DEFINITION. The document's library surface as commands (spec/30_encoding.md R75). A duration the document writes in
microseconds is here already ten times that value (R76). -/

namespace Sys2Proof.Machine

/-- The eight WRREGs that carry a configuration, in the order of R75. -/
def configCommands (c : ConfigRegs) : List Instr :=
  [ .wrReg 0x00#8 c.sampleRate, .wrReg 0x01#8 c.scanlineUs10, .wrReg 0x02#8 c.syncTipUs10, .wrReg 0x03#8 c.backPorchUs10,
    .wrReg 0x04#8 c.activeUs10, .wrReg 0x05#8 c.frontPorchUs10, .wrReg 0x06#8 c.vsyncLines, .wrReg 0x07#8 c.hsyncLines ]

/-- `init(config)` (R75). -/
def initCall (c : ConfigRegs) : List Instr := configCommands c ++ [.init]

/-- `computeTiming(f, us)` by commands (R75): the configuration, INIT, and five RDREGs of the record. -/
def computeTimingCall (c : ConfigRegs) : List Instr :=
  initCall c ++ [.rdReg 0x10#8, .rdReg 0x11#8, .rdReg 0x12#8, .rdReg 0x13#8, .rdReg 0x14#8]

/-- `setPixel(handle, row, col, value)` (R75). -/
def setPixelCall (row : BitVec 16) (col : Word) (value : Byte) : List Instr := [.setPixel row col value]

/-- `pumpOnce(handle)` (R75). -/
def pumpOnceCall : List Instr := [.pumpOnce]

/-- `run(handle)` (R75). -/
def runCall : List Instr := [.run]

/-- `stop(handle)` (R75). -/
def stopCall : List Instr := [.stop]

/-- `close(handle)` (R75). -/
def closeCall : List Instr := [.close]

/-- `getRow(index)` (R75). -/
def getRowCall (index : BitVec 16) : List Instr := [.getRow index]

/-- The SETPIXEL that intervenes between the reads of a GETROW, as a command (R199). -/
def Intervening.command (w : Intervening) : Instr := .setPixel w.row w.col w.value

/-- Commands as the words the host presents, in order (R130). -/
def asEvents (is : List Instr) : List Input := is.map fun i => .command (encode i)

end Sys2Proof.Machine
end

