-- ==== Sys2Proof/Machine/Stream.lean ====
section
/-! DEFINITION. How the output stream looks to the sink: bytes (spec/20_memory.md R45, spec/30_encoding.md R72) and
chunks (spec/44_stream_and_lifecycle.md R152). -/

namespace Sys2Proof.Machine

/-- A sample's two bytes, low byte first (R45). -/
def sampleBytes (x : Sample) : List Byte := [x.extractLsb' 0 8, x.extractLsb' 8 8]

/-- A pair's four bytes: audio low, audio high, video low, video high (R45, R72). -/
def Pair.bytes (p : Pair) : List Byte := sampleBytes p.audio ++ sampleBytes p.video

/-- A pair as one 32-bit little-endian word, audio in bits 15:0 (R45). -/
def Pair.word (p : Pair) : Word := p.video ++ p.audio

/-- The byte stream the sink sees (R45, R151). -/
def State.streamBytes (s : State) : List Byte := s.stream.flatMap Pair.bytes

/-- The chunk length C = max(1, floor(SPL / CHUNK_DIV)) (R152). -/
def chunkLength (spl div : Nat) : Nat := max 1 (spl / div)

/-- The number of chunks of a scanline, ceil(SPL / C) (R152). -/
def chunkCount (spl div : Nat) : Nat := (spl + chunkLength spl div - 1) / chunkLength spl div

/-- The lengths of a scanline's chunks: all C but the last, which has the remainder (R152). -/
def chunkLengths (spl div : Nat) : List Nat :=
  List.replicate (chunkCount spl div - 1) (chunkLength spl div) ++
    [spl - chunkLength spl div * (chunkCount spl div - 1)]

/-- A sequence cut into pieces of the given lengths, in order. -/
def cut {α : Type} : List Nat → List α → List (List α)
  | [], _ => []
  | n :: ns, l => l.take n :: cut ns (l.drop n)

/-- The chunks in which a scanline is handed to the sink (R152). -/
def State.chunksOf (s : State) (scanline : List Pair) : List (List Pair) :=
  cut (chunkLengths s.timing.spl.toNat s.params.chunkDiv) scanline

/-- Sample index SIL begins a chunk: where a chunked sink may fail (R155, T11). -/
def State.atChunkStart (s : State) : Bool := s.sil.toNat % chunkLength s.timing.spl.toNat s.params.chunkDiv == 0

end Sys2Proof.Machine
end

