-- ==== Sys2Proof/Safety.lean ====
section
/-! DEFINITION. What claims about a run are stated in: the invariants of spec/10_state.md R18, R22 and R34, the hazard rule
of spec/70_reset_and_hazards.md R197 and R198, a run of several steps. -/

namespace Sys2Proof.Machine

/-- The mode of line `n` of a field pass: V lines of VSync, H of HSync, then Video (R22). -/
def modeOfLine (v h n : Nat) : ScanMode := if n < v then .vsync else if n < v + h then .hsync else .video

/-- The lines of a field pass, V + H + P (R9, R20). -/
def ConfigRegs.linesPerPass (c : ConfigRegs) : Nat := c.v + c.h + pictureLines

/-- `ScanInv` (R22). -/
def State.ScanInv (s : State) : Prop :=
  s.scan.line.toNat < s.cfg.linesPerPass ∧ s.scan.mode = modeOfLine s.cfg.v s.cfg.h s.scan.line.toNat

/-- Nothing is stored outside the framebuffer (R41). -/
def State.StoreInside (s : State) : Prop :=
  ∀ cell ∈ s.fb, ∃ row col, row < rows ∧ col < s.cols ∧ cell.1 = fbKey row col

/-- What holds of the machine after reset and after every step: R34, with what R23, R26, R27, R29, R33 and R146 add. -/
structure State.Inv (s : State) : Prop where
  /-- R34(a): CLOSED exactly while FB_ALLOC is 0 -/
  closed_iff_no_store : s.life = .closed ↔ s.fbAlloc = false
  /-- R34(a): CLOSED exactly while SPL is 0 -/
  closed_iff_no_timing : s.life = .closed ↔ s.timing.spl = 0#32
  /-- R33, R146, R193: what a closed block holds -/
  closed_at_reset_values : s.life = .closed →
    s.timing = .zero ∧ s.scan = .initial ∧ s.sil = 0#32 ∧ s.stopReq = false ∧ s.fb = []
  /-- R34(b), R18 -/
  open_timing : s.life ≠ .closed → s.timing.valid = true
  /-- R34(b), R22 -/
  open_scan : s.life ≠ .closed → s.ScanInv
  /-- R34(b), R12 -/
  open_lines : s.life ≠ .closed → s.cfg.linesLegal = true
  /-- R27: LINE_ACTIVE and RUN_MODE are 0 unless RUNNING -/
  idle_unless_running : s.life ≠ .running → s.lineActive = false ∧ s.runMode = false
  /-- R23: SIL is 0 when no scanline is in flight and the block is not HALTED -/
  between_lines : s.lineActive = false → s.life ≠ .halted → s.sil = 0#32
  /-- R34(d) -/
  err_iff_halted : s.err ≠ 0#8 ↔ s.life = .halted
  /-- R26: the code of ConsistencyError or of SinkError -/
  err_code : s.err ≠ 0#8 → s.err = Status.consistencyError.code ∨ s.err = Status.sinkError.code
  /-- R34(e) -/
  sil_le : s.sil.toNat ≤ s.timing.spl.toNat
  /-- the store's canonical form -/
  store_canonical : s.fb.wf = true
  /-- R41: nothing is stored outside the framebuffer -/
  store_inside : s.StoreInside

/-- The cells of the table of R131 that say "refused" (for a WRREG that names a configuration register). -/
def refusedIn : Instr → Life → Bool
  | .wrReg _ _, .closed => false
  | .wrReg _ _, _ => true
  | .rdReg _, _ => false
  | .init, .closed => false
  | .init, _ => true
  | .setPixel _ _ _, .closed => true
  | .setPixel _ _ _, _ => false
  | .getRow _, .closed => true
  | .getRow _, _ => false
  | .pumpOnce, .closed | .pumpOnce, .running => true
  | .pumpOnce, .ready | .pumpOnce, .halted => false
  | .run, .closed | .run, .running => true
  | .run, .ready | .run, .halted => false
  | .stop, .closed => true
  | .stop, _ => false
  | .close, .running => true
  | .close, _ => false

/-- The scan state `k` line steps on (R118). -/
def Scan.advanceBy (v h : Nat) : Nat → Scan → Scan
  | 0, x => x
  | k + 1, x => (Scan.advanceBy v h k x).advance v h

/-- The machine with its scan state `k` line steps on, all else as it is. -/
def State.lineAt (s : State) (k : Nat) : State := { s with scan := s.scan.advanceBy s.cfg.v s.cfg.h k }

/-- The pairs of the next `n` scanlines, whole and in line-step order (R153), if none of them is out of bounds. -/
def State.scanlines (s : State) (n : Nat) : Option (List Pair) :=
  (allSome ((List.range n).map fun k => (s.lineAt k).produce)).map List.flatten

/-- The framebuffer row that a scan state reads, if it is a Video one (R115). -/
def Scan.rowRead (v h : Nat) (x : Scan) : Option Nat :=
  match x.mode with
  | .video => some (2 * (x.line.toNat - v - h) + x.field.bit.toNat)
  | .vsync | .hsync => none

/-- The encoder's turns of one scanline whose pairs the sink accepts: line start, SPL sample steps, line end (R129). -/
def wholeLine (spl : Nat) : List Input := List.replicate (spl + 2) (.encoder .accept)

/-- The state after `k` steps (R51). -/
def stepsFrom : Nat → State → Result
  | 0, s => .next s
  | k + 1, s =>
      match step s with
      | .next t => stepsFrom k t
      | .fault f => .fault f
      | .refused r => .refused r

/-- An event that keeps the hazard rule for row `row` and leaves the block running: a command other than a SETPIXEL to that
row (R197), a GETROW with SETPIXELs to other rows, or the encoder's turn with a sink that accepts or stalls (R154). -/
def Input.keepsHazardRule (row : Nat) : Input → Bool
  | .command w =>
      match decode w with
      | .command (.setPixel r _ _) => r.toNat != row
      | _ => true
  | .encoder .accept | .encoder .stall => true
  | .encoder .fail => false
  | .getRowAmong _ writes => writes.all fun w => w.row.toNat != row
  | .setup _ => true
  | .reset => false

/-- The number of pairs a list of events makes the sink accept while a scanline is in flight. -/
def acceptsIn (es : List Input) : Nat := es.countP (· == .encoder .accept)

/-- No row is being read, so every SETPIXEL is safe: LIFE is READY or HALTED, or the scanline is not a Video one (R198). -/
def State.safeWindow (s : State) : Bool :=
  match s.life with
  | .ready | .halted => true
  | .running => s.scan.mode != .video || !s.lineActive
  | .closed => false

/-- A sink that takes whole chunks: it fails only where a chunk begins (R152, R155). The step does not ask for it (log
entry 6). A claim about the chunked pump takes it as a premise on the event to come. -/
def State.sinkFailsAtChunkStart (s : State) : Prop :=
  s.inputs.head? = some (.encoder .fail) → s.lineActive = true → s.atChunkStart = true

end Sys2Proof.Machine
end

