-- ==== Sys2Proof/WellFormed.lean ====
section
/-! DEFINITION. The check on a command beyond its word's shape: the register number names a register the command may
address. spec/60_exceptions.md R174 makes it part of decode; spec/30_encoding.md R68 keeps such words decodable (they
match their row) and answers them with BADCMD, so the decoder accepts them and the meanings answer BADCMD. The widths of
the operands need no check: they are in the types (R62 to R64). -/

namespace Sys2Proof

/-- WRREG names a configuration register, RDREG an assigned one (R31, R32, R68). -/
def Instr.wellFormed : Instr → Bool
  | .wrReg reg _ => (regOfNumber reg).any RegName.isConfig
  | .rdReg reg => (regOfNumber reg).isSome
  | .init | .close | .pumpOnce | .run | .stop => true
  | .setPixel _ _ _ => true
  | .getRow _ => true

/-- `wellFormed` as a proposition. -/
abbrev Instr.WellFormed (i : Instr) : Prop := i.wellFormed = true

end Sys2Proof
end

