-- ==== Sys2Proof/Certificates/Slice0/Obligations.lean ====
section
/-! DEFINITION. The statements for the provers. -/

open Sys2Proof Sys2Proof.Machine

/-! ## Encodings -/

/-- R60 to R66: no bit of an encoding is dropped, for every command and every operand value. -/
def Obligations.DecodeOfEncodeIsTheCommand : Prop :=
  ∀ i : Instr, decode (encode i) = .command i

/-- R66, R68: a legal word is the encoding of the one command it decodes to. -/
def Obligations.LegalWordIsItsCommandsEncoding : Prop :=
  ∀ (w : CommandWord) (i : Instr), decode w = .command i → encode i = w

/-- R67: the decoder accepts exactly the words that a row of the opcode table selects by mask and match, it gives that row's
command, and no two rows select one word. -/
def Obligations.DecoderAgreesWithOpcodeTable : Prop :=
  (∀ w : CommandWord, (∃ i, decode w = .command i) ↔ ∃ r ∈ opcodeTable, r.selects w = true) ∧
  (∀ (w : CommandWord) (i : Instr) (r : OpcodeRow),
    decode w = .command i → r ∈ opcodeTable → r.selects w = true → r.mnemonic = i.mnemonic) ∧
  (∀ (w : CommandWord) (r q : OpcodeRow),
    r ∈ opcodeTable → q ∈ opcodeTable → r.selects w = true → q.selects w = true → r = q)

/-- Words of spec/95_test_vectors.md T7, the nineteen register numbers of R31, and the unassigned ones of U9. -/
def Obligations.WordsAndRegisterNumbersOfTheSpec : Prop :=
  decode 0x0100000000000000#64 = .command .init ∧
  decode 0x0200000000000000#64 = .command .close ∧
  decode 0x1000000000000000#64 = .command .pumpOnce ∧
  decode 0x1100000000000000#64 = .command .run ∧
  decode 0x1200000000000000#64 = .command .stop ∧
  decode 0x20000000000F4240#64 = .command (.wrReg 0x00#8 1000000#32) ∧
  decode 0x2110000000000000#64 = .command (.rdReg 0x10#8) ∧
  decode 0x300701E200000033#64 = .command (.setPixel 482#16 51#32 7#8) ∧
  decode 0x310001E200000000#64 = .command (.getRow 482#16) ∧
  decode 0x0300000000000000#64 = .illegal .unassignedOpcode ∧
  decode 0x0100000000000001#64 = .illegal .nonzeroMustBeZero ∧
  decode 0x2006000100000002#64 = .illegal .nonzeroMustBeZero ∧
  decode 0x2110000000000001#64 = .illegal .nonzeroMustBeZero ∧
  decode 0x3101000000000000#64 = .illegal .nonzeroMustBeZero ∧
  (∀ r : RegName, regOfNumber r.number = some r) ∧
  regOfNumber 0x00#8 = some .sampleRate ∧ regOfNumber 0x01#8 = some .scanlineUs10 ∧
  regOfNumber 0x02#8 = some .syncTipUs10 ∧ regOfNumber 0x03#8 = some .backPorchUs10 ∧
  regOfNumber 0x04#8 = some .activeUs10 ∧ regOfNumber 0x05#8 = some .frontPorchUs10 ∧
  regOfNumber 0x06#8 = some .vsyncLines ∧ regOfNumber 0x07#8 = some .hsyncLines ∧
  regOfNumber 0x10#8 = some .spl ∧ regOfNumber 0x11#8 = some .tip ∧ regOfNumber 0x12#8 = some .bp ∧
  regOfNumber 0x13#8 = some .act ∧ regOfNumber 0x14#8 = some .fp ∧
  regOfNumber 0x20#8 = some .status ∧ regOfNumber 0x21#8 = some .mode ∧ regOfNumber 0x22#8 = some .line ∧
  regOfNumber 0x23#8 = some .field ∧ regOfNumber 0x24#8 = some .sil ∧ regOfNumber 0x28#8 = some .err ∧
  (∀ n : Byte, regOfNumber n = none ↔
    (0x08 ≤ n.toNat ∧ n.toNat ≤ 0x0F) ∨ (0x15 ≤ n.toNat ∧ n.toNat ≤ 0x1F) ∨ (0x25 ≤ n.toNat ∧ n.toNat ≤ 0x27) ∨
      0x29 ≤ n.toNat)

/-! ## Steps -/

/-- R130: when the word the port accepts next decodes to a command, the step is that command's meaning, once the word is
taken; so it is for the word `withFetchWord` places. -/
def Obligations.StepRunsTheDecodedCommand : Prop :=
  (∀ (s : State) (w : CommandWord) (i : Instr) (rest : List Input),
    s.inputs = .command w :: rest → decode w = .command i → step s = exec i { s with inputs := rest }) ∧
  (∀ (s : State) (w : Nat) (i : Instr),
    decode (BitVec.ofNat 64 w) = .command i → step (s.withFetchWord 64 w) = exec i s)

/-- R51, R68, R126, R136: what a step does with each other event. An illegal word changes no state, emits nothing and is
answered with BADCMD. A GETROW and the SETPIXELs served with it are, outside RUNNING, those commands one after the other
(20_memory.md R49; that this is an event of its own is the model's reading, log entry 11; while RUNNING it is
NextByteOfARowRead). With no event to come nothing changes (the model's reading, log entry 3). -/
def Obligations.StepTakesEveryOtherEvent : Prop :=
  (∀ (s : State) (w : CommandWord) (why : Illegal) (rest : List Input),
    s.inputs = .command w :: rest → decode w = .illegal why →
      step s = .next { s with inputs := rest, responses := s.responses ++ [⟨none, 0xFF#8, .empty⟩] }) ∧
  (∀ (s : State) (a : SinkAnswer) (rest : List Input),
    s.inputs = .encoder a :: rest → step s = .next (State.encoderStep { s with inputs := rest } a)) ∧
  (∀ (s : State) (row : BitVec 16) (writes : List Intervening) (rest : List Input),
    s.inputs = .getRowAmong row writes :: rest → s.life ≠ .running →
      step s = stepsFrom (writes.length + 1) { s with
        inputs := asEvents (.getRow row :: writes.map Intervening.command) ++ rest }) ∧
  (∀ (s : State) (v : SinkSetup) (rest : List Input),
    s.inputs = .setup v :: rest → step s = .next { s with inputs := rest, sinkSetup := v }) ∧
  (∀ s : State, s.inputs = [] → step s = .next s) ∧
  (∀ s : State, ∃ t, step s = .next t)

/-! ## Reset -/

/-- R33: every register and flag after hardware reset, the framebuffer not allocated and not readable. -/
def Obligations.ResetValues : Prop :=
  ∀ s : State, s = State.reset ∨ (∃ u : State, s = u.hardwareReset) →
    s.readReg .sampleRate = 192000#32 ∧ s.readReg .scanlineUs10 = 635#32 ∧ s.readReg .syncTipUs10 = 47#32 ∧
    s.readReg .backPorchUs10 = 59#32 ∧ s.readReg .activeUs10 = 515#32 ∧ s.readReg .frontPorchUs10 = 14#32 ∧
    s.readReg .vsyncLines = 0#32 ∧ s.readReg .hsyncLines = 0#32 ∧
    s.readReg .spl = 0#32 ∧ s.readReg .tip = 0#32 ∧ s.readReg .bp = 0#32 ∧ s.readReg .act = 0#32 ∧ s.readReg .fp = 0#32 ∧
    s.readReg .mode = 0#32 ∧ s.readReg .line = 0#32 ∧ s.readReg .field = 1#32 ∧ s.readReg .sil = 0#32 ∧
    s.readReg .status = 0#32 ∧ s.readReg .err = 0#32 ∧
    s.scan.mode = .vsync ∧ s.scan.field = .odd ∧
    s.life = .closed ∧ s.stopReq = false ∧ s.fbAlloc = false ∧ s.lineActive = false ∧ s.runMode = false ∧
    (∀ row col : Nat, s.fbRead row col = none) ∧ (∀ row : Nat, s.rowBytes row = none)

/-- R190: hardware reset, in any state, is one step to the reset values. It sends no response and emits no pair; what lies
outside the block (the parameters, `sink_setup`, the pairs and responses already handed over) stays, which is the model's
reading (log entry 4). -/
def Obligations.HardwareResetFromAnyState : Prop :=
  ∀ (s : State) (rest : List Input), s.inputs = .reset :: rest →
    step s = .next { State.reset with
      inputs := rest, sinkSetup := s.sinkSetup, params := s.params, stream := s.stream, responses := s.responses }

/-! ## Registers -/

/-- R132, R31: WRREG in CLOSED stores all 32 bits in the register it names and changes nothing else; a register that is
read-only or unassigned gives BADCMD in any state; a configuration register outside CLOSED gives BADSTATE. With the worked
example. -/
def Obligations.WrRegStoresOrIsRefused : Prop :=
  ∀ (s : State) (reg : Byte) (data : Word),
    (∀ r : RegName, regOfNumber reg = some r → r.isConfig = true → s.life = .closed →
      ∃ cfg : ConfigRegs,
        exec (.wrReg reg data) s =
          .next { s with cfg := cfg, responses := s.responses ++ [⟨some (.wrReg reg data), 0x00#8, .empty⟩] } ∧
        ∀ q : RegName, State.readReg { s with cfg := cfg } q = if q = r then data else s.readReg q) ∧
    ((∀ r : RegName, regOfNumber reg = some r → r.isConfig = false) →
      exec (.wrReg reg data) s =
        .next { s with responses := s.responses ++ [⟨some (.wrReg reg data), 0xFF#8, .empty⟩] }) ∧
    (∀ r : RegName, regOfNumber reg = some r → r.isConfig = true → s.life ≠ .closed →
      exec (.wrReg reg data) s =
        .next { s with responses := s.responses ++ [⟨some (.wrReg reg data), 0xFE#8, .empty⟩] }) ∧
    decode 0x2006000000000002#64 = .command (.wrReg RegName.vsyncLines.number 2#32)

/-- R133: RDREG, in every lifecycle state, returns the register and writes no state; an unassigned number gives BADCMD. With
the worked example, and the value each register reads as (STATUS: StatusFields): the configuration registers (R11, R12), the
timing registers (R13 to R17), MODE, LINE, FIELD (R19 to R21, R70), SIL (R23), ERR with zeros above (R26). -/
def Obligations.RdRegReadsWithoutSideEffect : Prop :=
  (∀ (s : State) (reg : Byte) (r : RegName), regOfNumber reg = some r →
    exec (.rdReg reg) s =
      .next { s with responses := s.responses ++ [⟨some (.rdReg reg), 0x00#8, .word (s.readReg r)⟩] }) ∧
  (∀ (s : State) (reg : Byte), regOfNumber reg = none →
    exec (.rdReg reg) s = .next { s with responses := s.responses ++ [⟨some (.rdReg reg), 0xFF#8, .empty⟩] }) ∧
  decode 0x2110000000000000#64 = .command (.rdReg RegName.spl.number) ∧
  (∀ s : State, s.cfg.computeTiming = some s.timing →
    s.cfg = { ConfigRegs.reset with sampleRate := 1000000#32, vsyncLines := s.cfg.vsyncLines, hsyncLines := s.cfg.hsyncLines } →
    s.readReg .spl = 64#32) ∧
  (∀ s : State,
    s.readReg .sampleRate = s.cfg.sampleRate ∧ s.readReg .scanlineUs10 = s.cfg.scanlineUs10 ∧
    s.readReg .syncTipUs10 = s.cfg.syncTipUs10 ∧ s.readReg .backPorchUs10 = s.cfg.backPorchUs10 ∧
    s.readReg .activeUs10 = s.cfg.activeUs10 ∧ s.readReg .frontPorchUs10 = s.cfg.frontPorchUs10 ∧
    s.readReg .vsyncLines = s.cfg.vsyncLines ∧ s.readReg .hsyncLines = s.cfg.hsyncLines ∧
    s.readReg .spl = s.timing.spl ∧ s.readReg .tip = s.timing.tip ∧ s.readReg .bp = s.timing.bp ∧
    s.readReg .act = s.timing.act ∧ s.readReg .fp = s.timing.fp ∧
    s.readReg .mode = (match s.scan.mode with | .vsync => 0#32 | .hsync => 1#32 | .video => 2#32) ∧
    s.readReg .line = s.scan.line ∧
    s.readReg .field = (match s.scan.field with | .odd => 1#32 | .even => 0#32) ∧
    s.readReg .sil = s.sil ∧ (s.readReg .err).toNat = s.err.toNat)

/-- R28: the fields of STATUS, with the codes of LIFE from R24; bits 31:6 read 0; it is a view of the fields alone. -/
def Obligations.StatusFields : Prop :=
  (∀ s : State,
    (s.readReg .status).extractLsb' 0 2 =
      (match s.life with | .closed => 0#2 | .ready => 1#2 | .running => 2#2 | .halted => 3#2) ∧
    (s.readReg .status).getLsbD 2 = s.stopReq ∧
    (s.readReg .status).getLsbD 3 = s.fbAlloc ∧
    (s.readReg .status).getLsbD 4 = s.lineActive ∧
    (s.readReg .status).getLsbD 5 = s.runMode ∧
    (s.readReg .status).extractLsb' 6 26 = 0#26) ∧
  State.reset.readReg .status = 0#32

/-! ## The timing calculator -/

/-- R82, R86: COUNT is the nearest integer to d * f / 10000000, ties up, and non-decreasing in the duration and in the rate.
With the corner cases of the two rules. -/
def Obligations.CountRoundsToNearestTiesUp : Prop :=
  (∀ d f : Nat, count d f = (d * f + 5000000) / 10000000) ∧
  (∀ d f : Nat, 10000000 * count d f ≤ d * f + 5000000 ∧ d * f + 5000000 < 10000000 * (count d f + 1)) ∧
  (∀ d e f : Nat, d ≤ e → count d f ≤ count e f) ∧
  (∀ d f g : Nat, f ≤ g → count d f ≤ count d g) ∧
  (∀ f : Nat, count 0 f = 0) ∧ (∀ d f : Nat, d * f < 5000000 → count d f = 0) ∧
  count 635 192000 = 12 ∧ count 14 192000 = 0 ∧ count 46 1000000 = 5 ∧ count 47 1000000 = 5

/-- R89: with legal durations and rates no intermediate value or result overflows. -/
def Obligations.CountsFitTheirRegisters : Prop :=
  ∀ d f : Nat, d ≤ 65535 → f ≤ 2147483647 →
    d * f + 5000000 ≤ 140735345806145 ∧ 140735345806145 < 2 ^ 47 ∧ count d f ≤ 14073534 ∧ 14073534 < 2 ^ 24 ∧
    (∀ a b c : Nat, a ≤ 65535 → b ≤ 65535 → c ≤ 65535 →
      count a f + count b f + count c f + count d f < 2 ^ 26) ∧
    483 * count d f < 2 ^ 33

/-- R80: COMPUTETIMING succeeds exactly when the rate is positive, no duration exceeds 65535, no count is 0 and the four
segment counts sum to SPL within one; its result is the five counts, as numbers. With the worked example. -/
def Obligations.ComputeTimingRule : Prop :=
  (∀ (c : ConfigRegs) (t : Timing), c.computeTiming = some t ↔
    ∃ f : Nat, c.sampleRate.toInt = (f : Int) ∧ 0 < f ∧
      c.scanlineUs10.toNat ≤ 65535 ∧ c.syncTipUs10.toNat ≤ 65535 ∧ c.backPorchUs10.toNat ≤ 65535 ∧
      c.activeUs10.toNat ≤ 65535 ∧ c.frontPorchUs10.toNat ≤ 65535 ∧
      t.spl.toNat = count c.scanlineUs10.toNat f ∧ t.tip.toNat = count c.syncTipUs10.toNat f ∧
      t.bp.toNat = count c.backPorchUs10.toNat f ∧ t.act.toNat = count c.activeUs10.toNat f ∧
      t.fp.toNat = count c.frontPorchUs10.toNat f ∧
      t.spl.toNat ≠ 0 ∧ t.tip.toNat ≠ 0 ∧ t.bp.toNat ≠ 0 ∧ t.act.toNat ≠ 0 ∧ t.fp.toNat ≠ 0 ∧
      ((t.tip.toNat + t.bp.toNat + t.act.toNat + t.fp.toNat : Int) - t.spl.toNat).natAbs ≤ 1) ∧
  ({ ConfigRegs.reset with sampleRate := 1000000#32 } : ConfigRegs).computeTiming =
    some { spl := 64#32, tip := 5#32, bp := 6#32, act := 52#32, fp := 1#32 }

/-! ## INIT -/

/-- R134, R137: INIT succeeds when every check passes; the state it leaves, in full: valid timing, and every element of the
store reads 0. -/
def Obligations.InitOpensTheBlock : Prop :=
  ∀ (s : State) (t : Timing), s.life = .closed → 1 ≤ s.cfg.v → s.cfg.v ≤ 65535 → s.cfg.h ≤ 65535 →
    s.cfg.computeTiming = some t → 483 * t.act.toNat ≤ s.params.fbCapacityBytes → s.sinkSetup = .ok →
    ∃ u : State, exec .init s = .next u ∧
      u = { s with
        timing := t, fb := [], fbAlloc := true, scan := ⟨.vsync, 0#32, .odd⟩, sil := 0#32, stopReq := false, err := 0#8,
        lineActive := false, runMode := false, life := .ready, stream := [],
        responses := s.responses ++ [⟨some .init, 0x00#8, .empty⟩] } ∧
      u.timing.valid = true ∧
      (∀ row col : Nat, row ≤ 482 → col < t.act.toNat → u.fbRead row col = some 0#8) ∧
      (∀ row : Nat, row ≤ 482 → u.rowBytes row = some (List.replicate t.act.toNat 0#8))

/-- R135, R138, R173: in CLOSED the first failing check, in the order configuration, storage, sink, decides the response,
which is the only trace of a failed INIT. -/
def Obligations.InitReportsTheFirstFailingCheck : Prop :=
  ∀ s : State, s.life = .closed →
    (s.cfg.v < 1 ∨ 65535 < s.cfg.v ∨ 65535 < s.cfg.h ∨ s.cfg.computeTiming = none →
      exec .init s = .next { s with responses := s.responses ++ [⟨some .init, 0x01#8, .empty⟩] }) ∧
    (∀ t : Timing, 1 ≤ s.cfg.v → s.cfg.v ≤ 65535 → s.cfg.h ≤ 65535 → s.cfg.computeTiming = some t →
      (s.params.fbCapacityBytes < 483 * t.act.toNat →
        exec .init s = .next { s with responses := s.responses ++ [⟨some .init, 0x02#8, .empty⟩] }) ∧
      (483 * t.act.toNat ≤ s.params.fbCapacityBytes →
        (s.sinkSetup = .openFailed →
          exec .init s = .next { s with responses := s.responses ++ [⟨some .init, 0x03#8, .empty⟩] }) ∧
        (s.sinkSetup = .configFailed →
          exec .init s = .next { s with responses := s.responses ++ [⟨some .init, 0x04#8, .empty⟩] })))

/-- R196: INIT right after reset gives ConfigError; with the default durations every rate below 357143 does so whatever the
line counts, 357143 gives five nonzero counts, 922000 fails the sum check, and 192000000 gives the document's example
counts. -/
def Obligations.ResetConfigurationIsNotUsable : Prop :=
  exec .init State.reset = .next { State.reset with responses := [⟨some .init, 0x01#8, .empty⟩] } ∧
  ConfigRegs.reset.v = 0 ∧ count 14 192000 = 0 ∧
  (∀ (c : ConfigRegs) (f : Nat), f < 357143 →
    c = { ConfigRegs.reset with
      sampleRate := BitVec.ofNat 32 f, vsyncLines := c.vsyncLines, hsyncLines := c.hsyncLines } →
    c.computeTiming = none) ∧
  ({ ConfigRegs.reset with sampleRate := 357143#32 } : ConfigRegs).computeTiming =
    some { spl := 23#32, tip := 2#32, bp := 2#32, act := 18#32, fp := 1#32 } ∧
  ({ ConfigRegs.reset with sampleRate := 922000#32 } : ConfigRegs).computeTiming = none ∧
  ({ ConfigRegs.reset with sampleRate := 192000000#32 } : ConfigRegs).computeTiming =
    some { spl := 12192#32, tip := 902#32, bp := 1133#32, act := 9888#32, fp := 269#32 }

/-- R75, R195: the expansion of `init(config)`, eight WRREGs and INIT, takes a closed block with a legal configuration,
enough storage and a sink that is ready to READY, each command answered OK. -/
def Obligations.InitCallBootsTheBlock : Prop :=
  ∀ (s : State) (c : ConfigRegs) (t : Timing) (rest : List Input),
    s.life = .closed → c.linesLegal = true → c.computeTiming = some t →
    483 * t.act.toNat ≤ s.params.fbCapacityBytes → s.sinkSetup = .ok → s.inputs = asEvents (initCall c) ++ rest →
    stepsFrom 9 s = .next { s with
      cfg := c, timing := t, fb := [], fbAlloc := true, scan := ⟨.vsync, 0#32, .odd⟩, sil := 0#32, stopReq := false,
      err := 0#8, lineActive := false, runMode := false, life := .ready, stream := [], inputs := rest,
      responses := s.responses ++ (initCall c).map fun i => ⟨some i, 0x00#8, .empty⟩ }

/-! ## CLOSE -/

/-- R146, R148, R194: CLOSE is refused while RUNNING; otherwise it answers OK and leaves the reset state but for the
configuration registers. What lies outside the block stays too (the model's reading, log entry 4). On a closed block that
meets the invariant it changes nothing (R147). -/
def Obligations.CloseTearsDown : Prop :=
  (∀ s : State, s.life ≠ .running →
    exec .close s = .next { State.reset with
      cfg := s.cfg, sinkSetup := s.sinkSetup, params := s.params, stream := s.stream, inputs := s.inputs,
      responses := s.responses ++ [⟨some .close, 0x00#8, .empty⟩] }) ∧
  (∀ s : State, s.life = .running →
    exec .close s = .next { s with responses := s.responses ++ [⟨some .close, 0xFE#8, .empty⟩] }) ∧
  (∀ s : State, s.Inv → s.life = .closed →
    exec .close s = .next { s with responses := s.responses ++ [⟨some .close, 0x00#8, .empty⟩] })

/-! ## The lifecycle -/

/-- R131: the whole table. A command (a WRREG: of a configuration register) is answered BADSTATE with no other effect in
exactly the cells that say "refused". -/
def Obligations.LifecycleTable : Prop :=
  ∀ (i : Instr) (s : State), s.Inv → i.WellFormed →
    (refusedIn i s.life = true ↔
      exec i s = .next { s with responses := s.responses ++ [⟨some i, 0xFE#8, .empty⟩] })

/-- R24: LIFE changes only as the rule lists, each transition with its cause; besides these only hardware reset (R190). Two
points are the model's reading: a PUMPONCE is READY in the very step of its line end (LINE_ACTIVE 1, SIL at SPL: log entry 7),
and a stopped RUN is READY in the step that still sees STOP_REQ and RUN_MODE 1 (log entry 8). -/
def Obligations.LifeTransitions : Prop :=
  ∀ s t : State, step s = .next t → t.life ≠ s.life →
    ∃ (e : Input) (rest : List Input), s.inputs = e :: rest ∧
      ((s.life = .closed ∧ t.life = .ready ∧ e = .command (encode .init)) ∨
       (s.life = .ready ∧ t.life = .running ∧ (e = .command (encode .pumpOnce) ∨ e = .command (encode .run))) ∨
       (s.life = .running ∧ t.life = .ready ∧ s.runMode = false ∧ s.lineActive = true ∧
         s.timing.spl.toNat ≤ s.sil.toNat ∧ ∃ a, e = .encoder a) ∨
       (s.life = .running ∧ t.life = .ready ∧ s.runMode = true ∧ s.lineActive = false ∧ s.stopReq = true ∧
         ∃ a, e = .encoder a) ∨
       (s.life = .running ∧ t.life = .halted ∧ (t.err = 0x06#8 ∨ t.err = 0x07#8) ∧ ∃ a, e = .encoder a) ∨
       ((s.life = .ready ∨ s.life = .halted) ∧ t.life = .closed ∧ e = .command (encode .close)) ∨
       (t.life = .closed ∧ e = .reset))

/-- R65, R150, R69: a command is answered by exactly one response, at once, with a code of the table; but a PUMPONCE or RUN
accepted in READY, whose response comes when it ends. -/
def Obligations.OneResponsePerCommand : Prop :=
  ∀ (i : Instr) (s : State), s.Inv →
    ∃ t : State, exec i s = .next t ∧
      ((∃ r : Response, t.responses = s.responses ++ [r] ∧ r.command = some i ∧ ∃ st : Status, r.status = st.code) ∨
       ((i = .pumpOnce ∨ i = .run) ∧ s.life = .ready ∧ t.life = .running ∧ t.responses = s.responses))

/-! ## Picture access -/

/-- R94, R139, R53: SETPIXEL on an element that exists answers OK and writes exactly that element: every other element, and
every other address of the store, reads as before; every register, the stream and the rest are unchanged. A GETROW after it
reflects the write: served alone, its whole row is that of this moment; served with SETPIXELs to other elements between its
reads (the model's reading of R49, log entry 11), it still has the value. -/
def Obligations.SetPixelWritesOneElement : Prop :=
  ∀ (s : State) (row : BitVec 16) (col : Word) (value : Byte),
    s.Inv → s.life ≠ .closed → row.toNat ≤ 482 → col.toNat < s.timing.act.toNat →
    ∃ t : State, exec (.setPixel row col value) s = .next t ∧
      t = { s with fb := t.fb, responses := s.responses ++ [⟨some (.setPixel row col value), 0x00#8, .empty⟩] } ∧
      t.fbRead row.toNat col.toNat = some value ∧
      (∀ r c : Nat, (r, c) ≠ (row.toNat, col.toNat) → t.fbRead r c = s.fbRead r c) ∧
      (∀ a : Nat, a ≠ fbKey row.toNat col.toNat → t.fb.read a = s.fb.read a) ∧
      (∃ old : List Byte, s.rowBytes row.toNat = some old ∧
        exec (.getRow row) t = .next { t with
          responses := t.responses ++ [⟨some (.getRow row), 0x00#8, .bytes (old.set col.toNat value)⟩] }) ∧
      (∀ (writes : List Intervening) (rest : List Input),
        (∀ w ∈ writes, (w.row, w.col) ≠ (row, col)) →
        ∃ (u : State) (bs : List Byte) (more : List Response),
          step { t with inputs := .getRowAmong row writes :: rest } = .next u ∧
          u.responses = t.responses ++ ⟨some (.getRow row), 0x00#8, .bytes bs⟩ :: more ∧ bs[col.toNat]? = some value)

/-- R92, R140, R150: GETROW on a row that exists answers OK at once, in READY, RUNNING and HALTED, with its ACT bytes in
ascending column order, and changes nothing. This is the command served alone; with SETPIXELs between its reads it is
NextByteOfARowRead. -/
def Obligations.GetRowReturnsTheRow : Prop :=
  ∀ (s : State) (row : BitVec 16), s.life ≠ .closed → s.fbAlloc = true → row.toNat ≤ 482 →
    ∃ bs : List Byte, bs.length = s.timing.act.toNat ∧ (∀ c : Nat, c < s.timing.act.toNat → bs[c]? = s.fbRead row.toNat c) ∧
      exec (.getRow row) s = .next { s with responses := s.responses ++ [⟨some (.getRow row), 0x00#8, .bytes bs⟩] }

/-- R49, R92, R199: while RUNNING, a GETROW served with SETPIXELs between its reads. It is answered first, with ACT bytes in
ascending column order; each is the element of its column as it stands after exactly the SETPIXELs that come before that read
(`pre`), the first of them always before the first SETPIXEL, since that is accepted after the GETROW (R130). All else is as if
the SETPIXELs had been served one after the other. Out of range it is the commands one after the other. That all this is one event, between two steps of the encoder, is the model's reading of R49 with R130 and R150 (log
entry 11). -/
def Obligations.NextByteOfARowRead : Prop :=
  ∀ (s : State) (row : BitVec 16) (writes : List Intervening) (rest : List Input),
    s.inputs = .getRowAmong row writes :: rest → s.life = .running →
    (482 < row.toNat →
      step s = stepsFrom (writes.length + 1) { s with
        inputs := asEvents (.getRow row :: writes.map Intervening.command) ++ rest }) ∧
    (s.fbAlloc = true → row.toNat ≤ 482 →
      ∃ (bs : List Byte) (u : State), bs.length = s.timing.act.toNat ∧
        (∀ (pre post : List Intervening) (c : Nat), writes = pre ++ post → c < s.timing.act.toNat →
          (pre ≠ [] → 1 + (pre.map Intervening.reads).sum ≤ c) →
          (∀ (w : Intervening) (later : List Intervening),
            post = w :: later → c < 1 + (pre.map Intervening.reads).sum + w.reads) →
          ∃ v : State, stepsFrom pre.length { s with inputs := asEvents (pre.map Intervening.command) } = .next v ∧
            bs[c]? = v.fbRead row.toNat c) ∧
        stepsFrom writes.length { s with inputs := asEvents (writes.map Intervening.command) ++ rest } = .next u ∧
        step s = .next { u with
          responses := s.responses ++ ⟨some (.getRow row), 0x00#8, .bytes bs⟩ :: u.responses.drop s.responses.length })

/-- R49, R199: a GETROW issued while RUNNING can return a row that mixes moments if SETPIXELs to it intervene. Two of them
after `j + 1` of its reads: its first `j + 1` bytes are those of the row before both and the rest those of the row after both. Where the
first column was already read and the second was not, and both writes change their byte, that is a row the store held at no
moment. That the reads and the SETPIXELs are one event is the model's reading (log entry 11). -/
def Obligations.GetRowWhileRunningMayMixMoments : Prop :=
  ∀ (s : State) (row : BitVec 16) (c d : Word) (x y : Byte) (j : Nat) (rest : List Input),
    s.Inv → s.life = .running → row.toNat ≤ 482 →
    c.toNat < s.timing.act.toNat → d.toNat < s.timing.act.toNat → j < s.timing.act.toNat →
    s.inputs = .getRowAmong row [⟨j, row, c, x⟩, ⟨0, row, d, y⟩] :: rest →
    ∃ (before between after : List Byte) (fb : Memory),
      s.rowBytes row.toNat = some before ∧ between = before.set c.toNat x ∧ after = between.set d.toNat y ∧
      fb = (s.fb.write (fbKey row.toNat c.toNat) x).write (fbKey row.toNat d.toNat) y ∧
      step s = .next { s with
        fb := fb, inputs := rest,
        responses := s.responses ++ [⟨some (.getRow row), 0x00#8, .bytes (before.take (j + 1) ++ after.drop (j + 1))⟩,
          ⟨some (.setPixel row c x), 0x00#8, .empty⟩, ⟨some (.setPixel row d y), 0x00#8, .empty⟩] } ∧
      (c.toNat ≤ j → j < d.toNat → before[c.toNat]? ≠ some x → before[d.toNat]? ≠ some y →
        before.take (j + 1) ++ after.drop (j + 1) ∉ [before, between, after])

/-- R165: SETPIXEL out of range and GETROW out of range answer IndexError and do nothing else. -/
def Obligations.IndexErrorsAreLocal : Prop :=
  ∀ (s : State) (row : BitVec 16) (col : Word) (value : Byte), s.life ≠ .closed →
    (482 < row.toNat ∨ s.timing.act.toNat ≤ col.toNat →
      exec (.setPixel row col value) s =
        .next { s with responses := s.responses ++ [⟨some (.setPixel row col value), 0x05#8, .empty⟩] }) ∧
    (482 < row.toNat →
      exec (.getRow row) s = .next { s with responses := s.responses ++ [⟨some (.getRow row), 0x05#8, .empty⟩] })

/-! ## Streaming commands -/

/-- R141, R142, R149: PUMPONCE and RUN in READY start the encoder; in HALTED they answer the latched code and change
nothing. -/
def Obligations.PumpOnceAndRunStartTheEncoder : Prop :=
  ∀ s : State,
    (s.life = .ready →
      exec .pumpOnce s = .next { s with life := .running, runMode := false } ∧
      exec .run s = .next { s with life := .running, runMode := true }) ∧
    (s.life = .halted →
      exec .pumpOnce s = .next { s with responses := s.responses ++ [⟨some .pumpOnce, s.err, .empty⟩] } ∧
      exec .run s = .next { s with responses := s.responses ++ [⟨some .run, s.err, .empty⟩] })

/-- R144: STOP sets STOP_REQ and answers OK at once, in every state but CLOSED, where it is refused. Twice is the same as
once (but for the second response). -/
def Obligations.StopSetsTheRequest : Prop :=
  (∀ s : State, s.life ≠ .closed →
    exec .stop s = .next { s with stopReq := true, responses := s.responses ++ [⟨some .stop, 0x00#8, .empty⟩] }) ∧
  (∀ s : State, s.life = .closed →
    exec .stop s = .next { s with responses := s.responses ++ [⟨some .stop, 0xFE#8, .empty⟩] }) ∧
  (∀ s t u : State, s.life ≠ .closed → exec .stop s = .next t → exec .stop t = .next u →
    { u with responses := t.responses } = t)

/-! ## Levels and segments -/

/-- R102, R104: the luma mapping, its corner cases, and its properties: strictly increasing in steps of 89 or 90, within 9830
to 32767. -/
def Obligations.LumaMapping : Prop :=
  (∀ p : Byte, (luma p).toNat = 9830 + 22937 * p.toNat / 255) ∧
  luma 0#8 = 9830#16 ∧ luma 255#8 = 32767#16 ∧ luma 1#8 = 9919#16 ∧ luma 128#8 = 21343#16 ∧ luma 254#8 = 32677#16 ∧
  luma 100#8 = 0x4988#16 ∧
  (∀ p q : Byte, p.toNat < q.toNat → (luma p).toNat < (luma q).toNat) ∧
  (∀ p q : Byte, q.toNat = p.toNat + 1 →
    (luma q).toNat = (luma p).toNat + 89 ∨ (luma q).toNat = (luma p).toNat + 90) ∧
  (∀ p : Byte, 9830 ≤ (luma p).toNat ∧ (luma p).toNat ≤ 32767 ∧ (luma p).msb = false)

/-- R105, R106: the four segments partition a scanline in order, by the ranges of the rule; their lengths are TIP, BP, ACT
and SPL - TIP - BP - ACT, the last within one of FP; FP itself plays no part. With the corner cases. -/
def Obligations.SegmentsPartitionTheScanline : Prop :=
  ∀ t : Timing, t.valid = true →
    (∀ i : Nat, i < t.spl.toNat →
      (t.segmentAt i = .syncTip ↔ i < t.tip.toNat) ∧
      (t.segmentAt i = .backPorch ↔ t.tip.toNat ≤ i ∧ i < t.tip.toNat + t.bp.toNat) ∧
      (t.segmentAt i = .activeVideo ↔
        t.tip.toNat + t.bp.toNat ≤ i ∧ i < t.tip.toNat + t.bp.toNat + t.act.toNat) ∧
      (t.segmentAt i = .frontPorch ↔ t.tip.toNat + t.bp.toNat + t.act.toNat ≤ i)) ∧
    (let n := fun g : Segment => (List.range t.spl.toNat).countP fun i => t.segmentAt i == g
     n .syncTip = t.tip.toNat ∧ n .backPorch = t.bp.toNat ∧ n .activeVideo = t.act.toNat ∧
     n .frontPorch = t.spl.toNat - t.tip.toNat - t.bp.toNat - t.act.toNat ∧
     n .frontPorch ≤ t.fp.toNat + 1 ∧ t.fp.toNat ≤ n .frontPorch + 1 ∧
     (t = ⟨12192#32, 901#32, 1133#32, 9888#32, 269#32⟩ → n .frontPorch = 270) ∧
     (t = ⟨24#32, 2#32, 2#32, 20#32, 1#32⟩ → n .frontPorch = 0 ∧
       ({ ConfigRegs.reset with sampleRate := 384000#32 } : ConfigRegs).computeTiming = some t)) ∧
    (∀ (x : Word) (i : Nat), Timing.segmentAt { t with fp := x } i = t.segmentAt i)

/-- R112, R113: a VSync and an HSync scanline are TIP pairs at BLACK_LEVEL, then SPL - TIP pairs at BLANK_LEVEL, whatever the
framebuffer holds, and read no framebuffer byte. -/
def Obligations.BlankScanlines : Prop :=
  ∀ s : State, s.timing.valid = true → s.scan.mode = .vsync ∨ s.scan.mode = .hsync →
    s.produce = some (List.replicate s.timing.tip.toNat ⟨0#16, 9830#16⟩ ++
      List.replicate (s.timing.spl.toNat - s.timing.tip.toNat) ⟨0#16, 0#16⟩) ∧
    s.scanlineReads = []

/-- R114: a Video scanline is TIP pairs at BLACK_LEVEL, BP at BLANK_LEVEL, the luma of the bytes of row `lineIndex` in column
order, and the rest at BLANK_LEVEL; it reads exactly those ACT bytes, each once, ascending. -/
def Obligations.VideoScanlines : Prop :=
  ∀ (s : State) (row : Nat), s.timing.valid = true → s.fbAlloc = true → s.scan.mode = .video →
    s.lineIndex = some row → row ≤ 482 →
    ∃ bs : List Byte, s.rowBytes row = some bs ∧ bs.length = s.timing.act.toNat ∧
      s.produce = some (List.replicate s.timing.tip.toNat ⟨0#16, 9830#16⟩ ++
        List.replicate s.timing.bp.toNat ⟨0#16, 0#16⟩ ++
        bs.map (fun p => ⟨0#16, luma p⟩) ++
        List.replicate (s.timing.spl.toNat - s.timing.tip.toNat - s.timing.bp.toNat - s.timing.act.toNat) ⟨0#16, 0#16⟩) ∧
      s.scanlineReads = (List.range s.timing.act.toNat).map fun c => (some row, c)

/-- R110, R117: from a state that meets the invariant, PRODUCE never fails its bounds check, and emits exactly SPL pairs in
every mode, for every line, whatever the framebuffer holds. -/
def Obligations.EveryScanlineHasSplPairs : Prop :=
  ∀ s : State, s.Inv → s.life ≠ .closed →
    s.rowOutOfBounds = false ∧ ∃ ps : List Pair, s.produce = some ps ∧ ps.length = s.timing.spl.toNat

/-- R101, and the last sentence of R71: every pair a step emits has audio sample 0 and a video sample that is 0 or from 9830
to 32767. -/
def Obligations.EmittedLevels : Prop :=
  ∀ s t : State, step s = .next t →
    (∀ p ∈ s.stream, p.audio = 0#16 ∧ (p.video = 0#16 ∨ 9830 ≤ p.video.toNat ∧ p.video.toNat ≤ 32767)) →
    ∀ p ∈ t.stream, p.audio = 0#16 ∧ (p.video = 0#16 ∨ 9830 ≤ p.video.toNat ∧ p.video.toNat ≤ 32767)

/-- R72: a pair is four bytes, audio low, audio high, video low, video high; a pair with audio 0 is 00 00 lo hi; the blanking,
sync-tip and full-white pairs. -/
def Obligations.PairBytes : Prop :=
  (∀ p : Pair, ∃ a b c d : Byte, p.bytes = [a, b, c, d] ∧ b ++ a = p.audio ∧ d ++ c = p.video) ∧
  (∀ v : Sample, (Pair.bytes ⟨0#16, v⟩).take 2 = [0x00#8, 0x00#8]) ∧
  Pair.bytes ⟨0#16, blankLevel⟩ = [0x00#8, 0x00#8, 0x00#8, 0x00#8] ∧
  Pair.bytes ⟨0#16, blackLevel⟩ = [0x00#8, 0x00#8, 0x66#8, 0x26#8] ∧
  Pair.bytes ⟨0#16, whiteLevel⟩ = [0x00#8, 0x00#8, 0xFF#8, 0x7F#8]

/-- R152: the chunks of a scanline: C = max(1, floor(SPL / CHUNK_DIV)) pairs each, ceil(SPL / C) of them, the last with the
remainder, and their concatenation is the scanline. With the examples. -/
def Obligations.ChunksOfAScanline : Prop :=
  (∀ (s : State) (line : List Pair), 1 ≤ s.timing.spl.toNat → 1 ≤ s.params.chunkDiv →
    line.length = s.timing.spl.toNat →
    let spl := s.timing.spl.toNat
    let c := max 1 (spl / s.params.chunkDiv)
    let chunks := s.chunksOf line
    chunks.flatten = line ∧
    (chunks.length - 1) * c < spl ∧ spl ≤ chunks.length * c ∧
    (∀ k : Nat, k + 1 < chunks.length → (chunks[k]?).map List.length = some c) ∧
    (chunks.getLast?).map List.length = some (spl - c * (chunks.length - 1))) ∧
  chunkLengths 12192 8 = List.replicate 8 1524 ∧ chunkLengths 64 8 = List.replicate 8 8 ∧
  chunkLengths 12 8 = List.replicate 12 1 ∧ chunkLengths 23 8 = List.replicate 11 2 ++ [1]

/-! ## The scan state -/

/-- R115: lineIndex, where a Video line defines it. With the worked examples. -/
def Obligations.LineIndexFormula : Prop :=
  (∀ (s : State) (k : Nat), s.scan.line.toNat = s.cfg.v + s.cfg.h + k →
    s.lineIndex = some (2 * k + (match s.scan.field with | .odd => 1 | .even => 0))) ∧
  (∀ s : State, s.cfg.v = 2 → s.cfg.h = 3 →
    (s.scan = ⟨.video, 5#32, .odd⟩ → s.lineIndex = some 1) ∧
    (s.scan = ⟨.video, 245#32, .even⟩ → s.lineIndex = some 480))

/-- R119 to R122: the four steps of ADVANCE, for a scan state on line `l` of a pass. -/
def Obligations.AdvanceSteps : Prop :=
  ∀ (v h l : Nat) (f : FieldParity), 1 ≤ v → v ≤ 65535 → h ≤ 65535 →
    (l + 1 < v → Scan.advance v h ⟨.vsync, BitVec.ofNat 32 l, f⟩ = ⟨.vsync, BitVec.ofNat 32 (l + 1), f⟩) ∧
    (l + 1 = v → 1 ≤ h → Scan.advance v h ⟨.vsync, BitVec.ofNat 32 l, f⟩ = ⟨.hsync, BitVec.ofNat 32 v, f⟩) ∧
    (v ≤ l → l + 1 < v + h →
      Scan.advance v h ⟨.hsync, BitVec.ofNat 32 l, f⟩ = ⟨.hsync, BitVec.ofNat 32 (l + 1), f⟩) ∧
    (∀ m : ScanMode, l + 1 = v + h →
      Scan.advance v h ⟨m, BitVec.ofNat 32 l, f⟩ = ⟨.video, BitVec.ofNat 32 (v + h), f⟩) ∧
    (v + h ≤ l → l + 1 < v + h + 241 →
      Scan.advance v h ⟨.video, BitVec.ofNat 32 l, f⟩ = ⟨.video, BitVec.ofNat 32 (l + 1), f⟩) ∧
    (l + 1 = v + h + 241 → Scan.advance v h ⟨.video, BitVec.ofNat 32 l, f⟩ =
      ⟨.vsync, 0#32, match f with | .odd => .even | .even => .odd⟩)

/-- R124: ADVANCE keeps ScanInv, MODE after it is a function of LINE after it, it writes the scan state alone and reads
nothing but it and the line counts, and the walk from (VSync, 0, Odd) is periodic with period 2 * (V + H + P), each pass being
V VSync lines, H HSync lines and P Video lines
in one field. -/
def Obligations.ScanWalkIsPeriodic : Prop :=
  (∀ s : State, 1 ≤ s.cfg.v → s.cfg.v ≤ 65535 → s.cfg.h ≤ 65535 → s.ScanInv →
    s.advance.ScanInv ∧
    s.advance.scan.mode = modeOfLine s.cfg.v s.cfg.h s.advance.scan.line.toNat ∧
    s.advance = { s with scan := s.advance.scan } ∧
    (∀ t : State, t.cfg = s.cfg → t.scan = s.scan → t.advance.scan = s.advance.scan)) ∧
  (∀ v h : Nat, 1 ≤ v → v ≤ 65535 → h ≤ 65535 →
    let n := v + h + 241
    (∀ k : Nat, k < n →
      Scan.initial.advanceBy v h k = ⟨modeOfLine v h k, BitVec.ofNat 32 k, .odd⟩ ∧
      Scan.initial.advanceBy v h (n + k) = ⟨modeOfLine v h k, BitVec.ofNat 32 k, .even⟩) ∧
    (∀ k : Nat, Scan.initial.advanceBy v h (2 * n + k) = Scan.initial.advanceBy v h k) ∧
    (∀ start : Nat, start = 0 ∨ start = n →
      let m := fun g : ScanMode =>
        (List.range n).countP fun k => (Scan.initial.advanceBy v h (start + k)).mode == g
      m .vsync = v ∧ m .hsync = h ∧ m .video = 241))

/-- R116: over the two passes of a frame the encoder reads the odd rows 1 to 481 ascending, then the even rows 0 to 480
ascending: each of rows 0 to 481 once, row 482 never. -/
def Obligations.AFrameReadsEachRowOnce : Prop :=
  ∀ v h : Nat, 1 ≤ v → v ≤ 65535 → h ≤ 65535 →
    let visited := (List.range (2 * (v + h + 241))).filterMap fun k => (Scan.initial.advanceBy v h k).rowRead v h
    visited = (List.range 241).map (fun k => 2 * k + 1) ++ (List.range 241).map (fun k => 2 * k) ∧
    visited.Perm (List.range 482) ∧ 482 ∉ visited

/-! ## The encoder -/

/-- R126, R127, R128: the three steps of a running encoder. Three points are the model's reading: READY and the OK of a
PUMPONCE come in the very step of its line end (log entry 7), a stopped RUN ends in one step (log entry 8), and a line start
sets SIL to 0 (log entry 16). -/
def Obligations.EncoderSteps : Prop :=
  ∀ (s : State) (a : SinkAnswer), s.life = .running →
    (s.lineActive = false → (s.runMode = true → s.stopReq = false) → s.rowOutOfBounds = false →
      s.encoderStep a = { s with lineActive := true, sil := 0#32 }) ∧
    (∀ p : Pair, s.lineActive = true → s.sil.toNat < s.timing.spl.toNat → s.pairAt s.sil.toNat = some p →
      s.encoderStep .accept = { s with stream := s.stream ++ [p], sil := s.sil + 1#32 } ∧
      s.encoderStep .stall = s) ∧
    (s.lineActive = true → s.sil = s.timing.spl →
      (s.runMode = true →
        s.encoderStep a = { s with scan := s.scan.advance s.cfg.v s.cfg.h, sil := 0#32, lineActive := false }) ∧
      (s.runMode = false →
        s.encoderStep a = { s with
          scan := s.scan.advance s.cfg.v s.cfg.h, sil := 0#32, lineActive := false, life := .ready,
          responses := s.responses ++ [⟨some .pumpOnce, 0x00#8, .empty⟩] })) ∧
    (s.lineActive = false → s.runMode = true → s.stopReq = true →
      s.encoderStep a = { s with
        stopReq := false, runMode := false, life := .ready,
        responses := s.responses ++ [⟨some .run, 0x00#8, .empty⟩] })

/-- R176: a runtime error halts the encoder as one step: what is written, that nothing else is, and the response to the
command in progress. ConsistencyError arises at a line start out of bounds, SinkError where the sink fails an offered pair.
HALTED takes no encoder step (R179). -/
def Obligations.RuntimeErrorsHalt : Prop :=
  ∀ (s : State) (a : SinkAnswer),
    let inProgress : Instr := if s.runMode then .run else .pumpOnce
    (s.life = .running → s.lineActive = false → (s.runMode = true → s.stopReq = false) → s.scan.mode = .video →
      (∀ row : Nat, s.lineIndex = some row → 482 < row →
        s.encoderStep a = { s with
          err := 0x06#8, lineActive := false, runMode := false, life := .halted,
          responses := s.responses ++ [⟨some inProgress, 0x06#8, .empty⟩] })) ∧
    (∀ p : Pair, s.life = .running → s.lineActive = true → s.sil.toNat < s.timing.spl.toNat →
      s.pairAt s.sil.toNat = some p →
      s.encoderStep .fail = { s with
        err := 0x07#8, lineActive := false, runMode := false, life := .halted,
        responses := s.responses ++ [⟨some inProgress, 0x07#8, .empty⟩] }) ∧
    (s.life = .halted → s.encoderStep a = s)

/-- R129: a line start, SPL accepted sample steps and a line end emit the same pairs and leave the same state as one
LINESTEP. It is the scanline without commands in between (with them: HazardFreeScanlineCarriesItsRow). -/
def Obligations.SampleStepsAgreeWithLineStep : Prop :=
  ∀ (s : State) (rest : List Input), s.Inv → s.life = .running → s.lineActive = false →
    (s.runMode = true → s.stopReq = false) → s.inputs = wholeLine s.timing.spl.toNat ++ rest →
    stepsFrom (wholeLine s.timing.spl.toNat).length s = .next (State.lineStep { s with inputs := rest })

/-- R141: a PUMPONCE whose pairs the sink accepts, from its acceptance to its response: exactly one scanline of SPL pairs, the
scan state one line on, READY, OK, and STOP_REQ as it was. That READY and OK need no encoder turn after the line end is the
model's reading (log entry 7). -/
def Obligations.PumpOnceEmitsOneScanline : Prop :=
  ∀ (s : State) (es rest : List Input), s.Inv → s.life = .ready →
    es = .command (encode .pumpOnce) :: wholeLine s.timing.spl.toNat → s.inputs = es ++ rest →
    ∃ ps : List Pair, s.produce = some ps ∧ ps.length = s.timing.spl.toNat ∧
      stepsFrom es.length s = .next { s with
        scan := s.scan.advance s.cfg.v s.cfg.h, stream := s.stream ++ ps, inputs := rest,
        responses := s.responses ++ [⟨some .pumpOnce, 0x00#8, .empty⟩] }

/-- R142, R143, R153, R156: a RUN that has emitted `n` scanlines when a STOP arrives after `k` pairs of the next one emits
exactly `n + 1` whole scanlines, those PRODUCE gives in line-step order, then answers OK and is READY again. The number of
turns uses the one-step end of a stopped RUN (log entry 8). The RUN is still going when STOP has
answered, and SPL - k pairs follow: up to SPL - 1, as R201 says, once a pair of the scanline is accepted; with k = 0 the one
on offer and SPL - 1 more (log entry 19). -/
def Obligations.RunStopsAtTheScanlineBoundary : Prop :=
  ∀ (s : State) (n k : Nat) (es rest : List Input), s.Inv → s.life = .ready → s.stopReq = false →
    k ≤ s.timing.spl.toNat →
    es = .command (encode .run) :: (List.replicate n (wholeLine s.timing.spl.toNat)).flatten ++
      List.replicate (1 + k) (.encoder .accept) ++ .command (encode .stop) ::
      List.replicate (s.timing.spl.toNat - k + 2) (.encoder .accept) →
    s.inputs = es ++ rest →
    ∃ (ps : List Pair) (u : State), s.scanlines (n + 1) = some ps ∧ ps.length = (n + 1) * s.timing.spl.toNat ∧
      stepsFrom (es.length - (s.timing.spl.toNat - k + 2)) s = .next u ∧ u.life = .running ∧ u.stopReq = true ∧
      u.stream.length + (s.timing.spl.toNat - k) = s.stream.length + ps.length ∧
      stepsFrom es.length s = .next { s with
        scan := s.scan.advanceBy s.cfg.v s.cfg.h (n + 1), stream := s.stream ++ ps, inputs := rest,
        responses := s.responses ++ [⟨some .stop, 0x00#8, .empty⟩, ⟨some .run, 0x00#8, .empty⟩] }

/-- R54: a SETPIXEL to the row being read, served after `j` pairs of the scanline: the samples before it are those of the old
picture and the rest those of the new one, which differ in the written column alone. Nothing faults. -/
def Obligations.RacingSetPixelShowsOldOrNew : Prop :=
  ∀ (s : State) (row : BitVec 16) (col : Word) (value : Byte) (j : Nat) (es rest : List Input),
    s.Inv → s.life = .running → s.lineActive = true → s.sil = 0#32 → s.scan.mode = .video →
    s.lineIndex = some row.toNat → col.toNat < s.timing.act.toNat → j ≤ s.timing.spl.toNat →
    es = List.replicate j (.encoder .accept) ++ .command (encode (.setPixel row col value)) ::
      List.replicate (s.timing.spl.toNat - j) (.encoder .accept) →
    s.inputs = es ++ rest →
    ∃ old new : List Pair, s.produce = some old ∧
      new = old.set (s.timing.tip.toNat + s.timing.bp.toNat + col.toNat) ⟨0#16, luma value⟩ ∧
      stepsFrom es.length s = .next { s with
        fb := s.fb.write (fbKey row.toNat col.toNat) value, sil := s.timing.spl,
        stream := s.stream ++ old.take j ++ new.drop j, inputs := rest,
        responses := s.responses ++ [⟨some (.setPixel row col value), 0x00#8, .empty⟩] }

/-- R197: while a Video scanline is in flight and the host keeps the hazard rule (whatever else it commands, and however the
sink stalls), the scanline carries its row exactly as the row stood at the line start. Each encoder turn in it offers a pair,
since one after the last pair is accepted would be the line end. -/
def Obligations.HazardFreeScanlineCarriesItsRow : Prop :=
  ∀ (s : State) (row : Nat) (es rest : List Input),
    s.Inv → s.life = .running → s.lineActive = true → s.sil = 0#32 → s.scan.mode = .video → s.lineIndex = some row →
    (∀ e ∈ es, e.keepsHazardRule row = true) →
    (∀ pre a post, es = pre ++ .encoder a :: post → acceptsIn pre < s.timing.spl.toNat) → s.inputs = es ++ rest →
    ∃ (ps : List Pair) (t : State), s.produce = some ps ∧ stepsFrom es.length s = .next t ∧
      t.stream = s.stream ++ ps.take (acceptsIn es) ∧ t.sil.toNat = acceptsIn es ∧ t.inputs = rest ∧
      t.life = .running ∧ t.lineActive = true ∧ t.scan = s.scan

/-- R155, R152: a sink that takes whole chunks can leave SIL only at a multiple of the chunk length when it halts the
encoder. -/
def Obligations.ChunkedSinkHaltsAtAChunkStart : Prop :=
  ∀ s t : State, s.Inv → s.sinkFailsAtChunkStart → s.life = .running → step s = .next t → t.life = .halted →
    t.sil = s.sil ∧ max 1 (s.timing.spl.toNat / s.params.chunkDiv) ∣ t.sil.toNat

/-- R145: a stop request that is pending when RUN is issued ends that RUN at its first boundary: nothing is emitted, the
request is consumed, the scan state stays. That one encoder turn does all of it is the model's reading (log entry 8). -/
def Obligations.PendingStopEndsTheNextRunAtOnce : Prop :=
  ∀ (s : State) (a : SinkAnswer) (rest : List Input), s.Inv → s.life = .ready → s.stopReq = true →
    s.inputs = .command (encode .run) :: .encoder a :: rest →
    stepsFrom 2 s = .next { s with
      stopReq := false, inputs := rest, responses := s.responses ++ [⟨some .run, 0x00#8, .empty⟩] }

/-- R198: in a safe window no row is being read: what the encoder does next is the same whatever the framebuffer holds. -/
def Obligations.SafeWindowsReadNoRow : Prop :=
  ∀ (s : State) (a : SinkAnswer) (m : Memory), s.safeWindow = true →
    State.encoderStep { s with fb := m } a = { s.encoderStep a with fb := m }

/-! ## Whole-machine rules -/

/-- R11, R32, R87: the configuration registers change only by a WRREG in CLOSED or by hardware reset; the timing registers
only by a successful INIT, by CLOSE or by hardware reset; the parameters never. -/
def Obligations.WhoWritesConfigurationAndTiming : Prop :=
  ∀ s t : State, step s = .next t →
    t.params = s.params ∧
    (t.cfg = s.cfg ∨
      (s.life = .closed ∧ ∃ reg data rest, s.inputs = .command (encode (.wrReg reg data)) :: rest) ∨
      ∃ rest, s.inputs = .reset :: rest) ∧
    (t.timing = s.timing ∨
      (s.life = .closed ∧ t.life = .ready ∧ ∃ rest, s.inputs = .command (encode .init) :: rest) ∨
      (t.life = .closed ∧ ∃ rest, s.inputs = .command (encode .close) :: rest) ∨
      ∃ rest, s.inputs = .reset :: rest)

/-- R96: every byte of the store reads after a step as before it, but for a SETPIXEL (the one element it names), SETPIXELs
served with a GETROW (the elements they name), a successful INIT, CLOSE and hardware reset. The encoder never writes it. -/
def Obligations.WhoWritesTheFramebuffer : Prop :=
  ∀ s t : State, step s = .next t →
    (∀ a : Nat, t.fb.read a = s.fb.read a) ∨
    (∃ row col value rest, s.inputs = .command (encode (.setPixel row col value)) :: rest ∧
      ∀ a : Nat, a ≠ fbKey row.toNat col.toNat → t.fb.read a = s.fb.read a) ∨
    (∃ row writes rest, s.inputs = .getRowAmong row writes :: rest ∧
      ∀ a : Nat, (∀ w ∈ writes, a ≠ fbKey w.row.toNat w.col.toNat) → t.fb.read a = s.fb.read a) ∨
    (s.life = .closed ∧ t.life = .ready ∧ ∃ rest, s.inputs = .command (encode .init) :: rest) ∨
    (t.life = .closed ∧ ∃ rest, s.inputs = .command (encode .close) :: rest) ∨
    ∃ rest, s.inputs = .reset :: rest

/-- R43: the output stream is never rewritten, reordered or truncated: a step leaves it, or appends the one pair the sink
accepts, or starts the new stream of a successful INIT. -/
def Obligations.StreamIsAppendOnly : Prop :=
  ∀ s t : State, step s = .next t →
    t.stream = s.stream ∨
    (∃ p rest, t.stream = s.stream ++ [p] ∧ s.inputs = .encoder .accept :: rest ∧ s.life = .running ∧
      s.lineActive = true ∧ s.pairAt s.sil.toNat = some p) ∨
    (t.stream = [] ∧ s.life = .closed ∧ t.life = .ready ∧ ∃ rest, s.inputs = .command (encode .init) :: rest)

/-- R170: an INIT in CLOSED answers OK or an InitError, and a step that halts the encoder answers the command in progress with a
PumpError, which it latches. -/
def Obligations.ErrorTypesOfInitAndPump : Prop :=
  (∀ s : State, s.life = .closed →
    ∃ (t : State) (e : Status), exec .init s = .next t ∧
      t.responses = s.responses ++ [⟨some .init, e.code, .empty⟩] ∧ (e = .ok ∧ t.life = .ready ∨
        e.isInitError = true ∧ t.life = .closed)) ∧
  (∀ s t : State, step s = .next t → s.life ≠ .halted → t.life = .halted →
    ∃ e : Status, e.isPumpError = true ∧ t.err = e.code ∧
      t.responses = s.responses ++ [⟨some (if s.runMode then .run else .pumpOnce), e.code, .empty⟩])

/-- R26, R179: the error latch is never overwritten while nonzero; only CLOSE (and hardware reset) clears it. -/
def Obligations.ErrorLatchIsSticky : Prop :=
  ∀ s t : State, s.Inv → step s = .next t → s.err ≠ 0#8 →
    (t.err = s.err ∧ t.life = .halted) ∨
    (t.err = 0#8 ∧ t.life = .closed ∧
      ((∃ rest, s.inputs = .command (encode .close) :: rest) ∨ ∃ rest, s.inputs = .reset :: rest))

/-- R153, R156, R23: while a handle exists the stream is a whole number of scanlines and the SIL pairs of the one in
flight (or cut by a halt). -/
def Obligations.StreamIsWholeScanlines : Prop :=
  ∀ s t : State, s.Inv → (s.life ≠ .closed → ∃ n : Nat, s.stream.length = n * s.timing.spl.toNat + s.sil.toNat) →
    step s = .next t →
    (t.life ≠ .closed → ∃ n : Nat, t.stream.length = n * t.timing.spl.toNat + t.sil.toNat)

/-! ## The invariant -/

/-- The invariant holds after reset. -/
def Obligations.ResetMeetsTheInvariant : Prop := State.reset.Inv

/-- Every step keeps the invariant, from every state that meets it. -/
def Obligations.StepKeepsTheInvariant : Prop :=
  ∀ s t : State, s.Inv → step s = .next t → t.Inv

/-- R34: what holds in every state reachable from reset, whatever the parameters, the sink and the host do. -/
def Obligations.ReachableStates : Prop :=
  ∀ (params : Params) (setup : SinkSetup) (events : List Input) (k : Nat) (t : State),
    stepsFrom k { State.reset with params := params, sinkSetup := setup, inputs := events } = .next t →
    ((t.life = .closed ↔ t.fbAlloc = false) ∧ (t.fbAlloc = false ↔ t.timing.spl = 0#32)) ∧
    (t.life ≠ .closed → t.timing.valid = true ∧ t.ScanInv ∧ 1 ≤ t.cfg.v ∧ t.cfg.v ≤ 65535 ∧ t.cfg.h ≤ 65535) ∧
    (t.life = .ready → t.sil = 0#32 ∧ t.lineActive = false ∧ t.runMode = false ∧ t.err = 0#8) ∧
    (t.err ≠ 0#8 ↔ t.life = .halted) ∧
    t.sil.toNat ≤ t.timing.spl.toNat ∧
    t.readReg .mode ≠ 3#32
end

