-- ==== Sys2Proof/Laws/Codec.lean ====
section
/-! SUPPORT. The fields of a command word and how they join: each field law once, for the decoder's and the encoder's laws. -/

namespace Sys2Proof

theorem toNat_append_eq {m n : Nat} (x : BitVec m) (y : BitVec n) : (x ++ y).toNat = x.toNat * 2 ^ n + y.toNat := by
  rw [BitVec.toNat_append, ← Nat.shiftLeft_add_eq_or_of_lt y.isLt, Nat.shiftLeft_eq]

theorem opField_toNat (w : CommandWord) : (opField w).toNat = w.toNat / 2 ^ 56 % 2 ^ 8 := by
  simp [opField, BitVec.extractLsb'_toNat, Nat.shiftRight_eq_div_pow]

theorem highField_toNat (w : CommandWord) : (highField w).toNat = w.toNat / 2 ^ 48 % 2 ^ 8 := by
  simp [highField, BitVec.extractLsb'_toNat, Nat.shiftRight_eq_div_pow]

theorem midField_toNat (w : CommandWord) : (midField w).toNat = w.toNat / 2 ^ 32 % 2 ^ 16 := by
  simp [midField, BitVec.extractLsb'_toNat, Nat.shiftRight_eq_div_pow]

theorem lowField_toNat (w : CommandWord) : (lowField w).toNat = w.toNat % 2 ^ 32 := by
  simp [lowField, BitVec.extractLsb'_toNat]

theorem bodyField_toNat (w : CommandWord) : (bodyField w).toNat = w.toNat % 2 ^ 56 := by
  simp [bodyField, BitVec.extractLsb'_toNat]

/-- The body of format N is zero exactly when the three fields below the opcode are. -/
theorem bodyField_eq_zero (w : CommandWord) :
    bodyField w = 0#56 ↔ highField w = 0#8 ∧ midField w = 0#16 ∧ lowField w = 0#32 := by
  simp only [← BitVec.toNat_inj, bodyField_toNat, highField_toNat, midField_toNat, lowField_toNat, BitVec.toNat_ofNat]
  omega

/-- A word joined from its four fields. -/
theorem fields_of_join (op high : Byte) (mid : BitVec 16) (low : Word) :
    opField (op ++ high ++ mid ++ low) = op ∧ highField (op ++ high ++ mid ++ low) = high ∧
      midField (op ++ high ++ mid ++ low) = mid ∧ lowField (op ++ high ++ mid ++ low) = low := by
  have := op.isLt
  have := high.isLt
  have := mid.isLt
  have := low.isLt
  refine ⟨?_, ?_, ?_, ?_⟩ <;> apply BitVec.eq_of_toNat_eq <;>
    simp only [opField_toNat, highField_toNat, midField_toNat, lowField_toNat, toNat_append_eq] <;> omega

/-- Every word is its four fields joined. -/
theorem join_of_fields (w : CommandWord) : opField w ++ highField w ++ midField w ++ lowField w = w := by
  apply BitVec.eq_of_toNat_eq
  have := w.isLt
  simp only [toNat_append_eq, opField_toNat, highField_toNat, midField_toNat, lowField_toNat]
  omega

end Sys2Proof
end

