-- ==== Sys2Proof/Laws/Memory.lean ====
section
/-! SUPPORT. The laws of the sparse store: read after write, and the canonical form kept. -/

namespace Sys2Proof.Machine

@[simp] theorem Memory.read_nil (a : Nat) : Memory.read [] a = 0#8 := rfl

theorem Memory.read_cons (k : Nat) (b : Byte) (m : Memory) (a : Nat) :
    Memory.read ((k, b) :: m) a = if a = k then b else Memory.read m a := rfl

theorem Memory.wfFrom_cons (lo k : Nat) (b : Byte) (m : Memory) :
    Memory.wfFrom lo ((k, b) :: m) = true ↔ lo ≤ k ∧ b ≠ 0#8 ∧ Memory.wfFrom (k + 1) m = true := by
  simp [Memory.wfFrom, and_assoc]

theorem Memory.wfFrom_mono {lo hi : Nat} {m : Memory} (hle : lo ≤ hi) (h : Memory.wfFrom hi m = true) :
    Memory.wfFrom lo m = true := by
  cases m with
  | nil => rfl
  | cons c m =>
    obtain ⟨k, b⟩ := c
    rw [Memory.wfFrom_cons] at h ⊢
    exact ⟨hle.trans h.1, h.2⟩

/-- Below the first listed address everything reads as 0. -/
theorem Memory.read_of_lt {lo : Nat} {m : Memory} (h : Memory.wfFrom lo m = true) {a : Nat} (ha : a < lo) :
    m.read a = 0#8 := by
  induction m generalizing lo with
  | nil => rfl
  | cons c m ih =>
    obtain ⟨k, b⟩ := c
    rw [Memory.wfFrom_cons] at h
    rw [Memory.read_cons, if_neg (by omega)]
    exact ih h.2.2 (by omega)

/-- A read after a write to the same address gives the value written. -/
theorem Memory.read_write_same {lo : Nat} {m : Memory} (h : Memory.wfFrom lo m = true) (a : Nat) (v : Byte) :
    (m.write a v).read a = v := by
  induction m generalizing lo with
  | nil => by_cases hv : v = 0#8 <;> simp [Memory.write, Memory.read_cons, hv]
  | cons c m ih =>
    obtain ⟨k, b⟩ := c
    rw [Memory.wfFrom_cons] at h
    simp only [Memory.write]
    split
    · split
      · subst v
        rw [Memory.read_cons, if_neg (by omega)]
        exact Memory.read_of_lt h.2.2 (by omega)
      · simp [Memory.read_cons]
    · split
      · split
        · subst v a
          exact Memory.read_of_lt h.2.2 (by omega)
        · simp [Memory.read_cons]
      · rw [Memory.read_cons, if_neg (by assumption)]
        exact ih h.2.2

/-- A write leaves every other address alone. -/
theorem Memory.read_write_other (m : Memory) {a b : Nat} (hne : b ≠ a) (v : Byte) :
    (m.write a v).read b = m.read b := by
  induction m with
  | nil => by_cases hv : v = 0#8 <;> simp [Memory.write, Memory.read_cons, hv, hne]
  | cons c m ih =>
    obtain ⟨k, x⟩ := c
    simp only [Memory.write]
    split
    · split <;> simp [Memory.read_cons, hne]
    · split
      · next h => subst h; split <;> simp [Memory.read_cons, hne]
      · simp [Memory.read_cons, ih]

/-- A write keeps the canonical form. -/
theorem Memory.wfFrom_write {lo : Nat} {m : Memory} (h : Memory.wfFrom lo m = true) {a : Nat} (ha : lo ≤ a) (v : Byte) :
    Memory.wfFrom lo (m.write a v) = true := by
  induction m generalizing lo with
  | nil =>
    by_cases hv : v = 0#8
    · simp [Memory.write, hv, Memory.wfFrom]
    · simp [Memory.write, hv, Memory.wfFrom, ha]
  | cons c m ih =>
    obtain ⟨k, b⟩ := c
    have hc := h
    rw [Memory.wfFrom_cons] at h
    simp only [Memory.write]
    split
    · split
      · exact hc
      · exact (Memory.wfFrom_cons ..).2 ⟨ha, by assumption, (Memory.wfFrom_cons ..).2 ⟨by omega, h.2⟩⟩
    · split
      · split
        · exact Memory.wfFrom_mono (by omega) h.2.2
        · exact (Memory.wfFrom_cons ..).2 ⟨ha, by assumption, Memory.wfFrom_mono (by omega) h.2.2⟩
      · exact (Memory.wfFrom_cons ..).2 ⟨h.1, h.2.1, ih h.2.2 (by omega)⟩

theorem Memory.write_keeps_wf {m : Memory} (h : m.wf = true) (a : Nat) (v : Byte) : (m.write a v).wf = true :=
  Memory.wfFrom_write h (Nat.zero_le a) v

@[simp] theorem Memory.nil_wf : Memory.wf [] = true := rfl

/-- What a written store lists: the address written, or what it listed before. -/
theorem Memory.mem_write {m : Memory} {a : Nat} {v : Byte} {cell : Host.Cell} (h : cell ∈ m.write a v) :
    cell.1 = a ∨ cell ∈ m := by
  induction m with
  | nil =>
    by_cases hv : v = 0#8
    · simp [Memory.write, hv] at h
    · simp only [Memory.write, hv, if_false, List.mem_singleton] at h
      exact .inl (by rw [h])
  | cons c m ih =>
    obtain ⟨k, b⟩ := c
    simp only [Memory.write] at h
    split at h
    · split at h
      · exact .inr h
      · rcases List.mem_cons.1 h with h | h
        · exact .inl (by rw [h])
        · exact .inr h
    · split at h
      · split at h
        · exact .inr (List.mem_cons_of_mem _ h)
        · rcases List.mem_cons.1 h with h | h
          · exact .inl (by rw [h])
          · exact .inr (List.mem_cons_of_mem _ h)
      · rcases List.mem_cons.1 h with h | h
        · exact .inr (by rw [h]; exact List.mem_cons_self)
        · exact (ih h).imp id (List.mem_cons_of_mem _)

/-- Two stores in canonical form that read alike everywhere are equal. -/
theorem Memory.ext_of_read {lo : Nat} {m n : Memory} (hm : Memory.wfFrom lo m = true) (hn : Memory.wfFrom lo n = true)
    (h : ∀ a, m.read a = n.read a) : m = n := by
  induction m generalizing lo n with
  | nil =>
    cases n with
    | nil => rfl
    | cons c n =>
      obtain ⟨k, b⟩ := c
      rw [Memory.wfFrom_cons] at hn
      have := h k
      rw [Memory.read_cons, if_pos rfl] at this
      exact absurd this.symm hn.2.1
  | cons c m ih =>
    obtain ⟨k, b⟩ := c
    rw [Memory.wfFrom_cons] at hm
    cases n with
    | nil =>
      have := h k
      rw [Memory.read_cons, if_pos rfl] at this
      exact absurd this hm.2.1
    | cons d n =>
      obtain ⟨j, e⟩ := d
      rw [Memory.wfFrom_cons] at hn
      have hkj : k = j := by
        rcases Nat.lt_trichotomy k j with hlt | heq | hgt
        · have := h k
          rw [Memory.read_cons, if_pos rfl, Memory.read_cons, if_neg (by omega),
            Memory.read_of_lt hn.2.2 (by omega)] at this
          exact absurd this hm.2.1
        · exact heq
        · have := h j
          rw [Memory.read_cons, if_neg (by omega), Memory.read_of_lt hm.2.2 (by omega), Memory.read_cons,
            if_pos rfl] at this
          exact absurd this.symm hn.2.1
      subst hkj
      have hbe : b = e := by simpa [Memory.read_cons] using h k
      subst hbe
      have : m = n := by
        refine ih hm.2.2 hn.2.2 fun a => ?_
        by_cases ha : a = k
        · subst ha
          rw [Memory.read_of_lt hm.2.2 (by omega), Memory.read_of_lt hn.2.2 (by omega)]
        · simpa [Memory.read_cons, ha] using h a
      rw [this]

/-- No two elements share a key (R41, R44): columns are below 2^32. -/
theorem fbKey_inj {r c r' c' : Nat} (hc : c < 4294967296) (hc' : c' < 4294967296) :
    fbKey r c = fbKey r' c' ↔ r = r' ∧ c = c' := by
  unfold fbKey; omega

/-! ## `allSome` -/

@[simp] theorem allSome_nil {α : Type} : allSome ([] : List (Option α)) = some [] := rfl

theorem allSome_map_some {α β : Type} (f : α → β) (l : List α) :
    allSome (l.map fun a => some (f a)) = some (l.map f) := by
  induction l with
  | nil => rfl
  | cons a l ih => simp [allSome, ih]

/-- `allSome` answers a list exactly when every element is there, and then it is those elements. -/
theorem allSome_eq_some {α : Type} {l : List (Option α)} {r : List α} : allSome l = some r ↔ l = r.map some := by
  induction l generalizing r with
  | nil => cases r <;> simp
  | cons o l ih =>
    cases o with
    | none => cases r <;> simp [allSome]
    | some a =>
      cases r with
      | nil => simp [allSome]
      | cons b r => simp [allSome, ih, and_comm]

/-! ## The framebuffer accessors -/

theorem State.rowExists_iff {s : State} {r : Nat} : s.rowExists r = true ↔ s.fbAlloc = true ∧ r < 483 := by
  simp only [State.rowExists, Bool.and_eq_true, decide_eq_true_eq]

theorem State.elementExists_iff {s : State} {r c : Nat} :
    s.elementExists r c = true ↔ s.fbAlloc = true ∧ r < 483 ∧ c < s.timing.act.toNat := by
  simp only [State.elementExists, Bool.and_eq_true, decide_eq_true_eq, State.rowExists_iff, and_assoc]

theorem State.fbRead_eq_some {s : State} {r c : Nat} {v : Byte} :
    s.fbRead r c = some v ↔
      s.fbAlloc = true ∧ r < 483 ∧ c < s.timing.act.toNat ∧ s.fb.read (fbKey r c) = v := by
  simp [State.fbRead, State.elementExists_iff, and_assoc]

theorem State.fbRead_of_exists {s : State} {r c : Nat} (ha : s.fbAlloc = true) (hr : r < 483)
    (hc : c < s.timing.act.toNat) : s.fbRead r c = some (s.fb.read (fbKey r c)) :=
  State.fbRead_eq_some.2 ⟨ha, hr, hc, rfl⟩

/-- FB.GETROW of a row that exists (R92). -/
theorem State.rowBytes_of_exists {s : State} {r : Nat} (ha : s.fbAlloc = true) (hr : r < 483) :
    s.rowBytes r = some ((List.range s.timing.act.toNat).map fun c => s.fb.read (fbKey r c)) := by
  have hmap : (List.range s.timing.act.toNat).map (s.fbRead r) =
      (List.range s.timing.act.toNat).map fun c => some (s.fb.read (fbKey r c)) :=
    List.map_congr_left fun c hc => State.fbRead_of_exists ha hr (List.mem_range.1 hc)
  rw [State.rowBytes, if_pos (State.rowExists_iff.2 ⟨ha, hr⟩)]
  rw [State.cols, hmap, allSome_map_some]

theorem State.rowBytes_of_absent {s : State} {r : Nat} (h : s.rowExists r = false) : s.rowBytes r = none := by
  simp [State.rowBytes, h]

/-- A row read in full, column by column (R92, R93). -/
theorem State.rowBytes_eq_some {s : State} {r : Nat} {bs : List Byte} (h : s.rowBytes r = some bs) :
    s.fbAlloc = true ∧ r < 483 ∧ bs.length = s.timing.act.toNat ∧ ∀ c < s.timing.act.toNat, s.fbRead r c = bs[c]? := by
  cases he : s.rowExists r with
  | false => rw [State.rowBytes_of_absent he] at h; simp at h
  | true =>
    obtain ⟨ha, hr⟩ := State.rowExists_iff.1 he
    rw [State.rowBytes_of_exists ha hr, Option.some.injEq] at h
    subst h
    refine ⟨ha, hr, by simp, fun c hc => ?_⟩
    rw [State.fbRead_of_exists ha hr hc]
    simp [hc]

/-- A row after a write to one of its elements (R53, R94). -/
theorem State.rowBytes_write {s : State} {r c : Nat} {bs : List Byte} (hw : s.fb.wf = true) (h : s.rowBytes r = some bs)
    (hc : c < s.timing.act.toNat) (v : Byte) :
    State.rowBytes { s with fb := s.fb.write (fbKey r c) v } r = some (bs.set c v) := by
  obtain ⟨ha, hr, -, -⟩ := State.rowBytes_eq_some h
  have hact := s.timing.act.isLt
  rw [State.rowBytes_of_exists ha hr, Option.some.injEq] at h
  subst h
  rw [State.rowBytes_of_exists (s := { s with fb := s.fb.write (fbKey r c) v }) ha hr, Option.some.injEq]
  apply List.ext_getElem?
  intro i
  by_cases hi : i < s.timing.act.toNat
  · by_cases hic : c = i
    · subst hic; simp [hi, Memory.read_write_same hw]
    · have hne : fbKey r i ≠ fbKey r c := by rw [Ne, fbKey_inj (by omega) (by omega)]; omega
      simp [hi, hic, Memory.read_write_other _ hne]
  · simp [hi]

/-- `FbWrite` in one lemma (R94): it writes one byte of an element that exists, or nothing. -/
theorem State.fbWrite_eq_some {s t : State} {r c : Nat} {v : Byte} (h : s.fbWrite r c v = some t) :
    s.fbAlloc = true ∧ r < 483 ∧ c < s.timing.act.toNat ∧ t = { s with fb := s.fb.write (fbKey r c) v } := by
  simp only [State.fbWrite] at h
  split at h
  · next he =>
    rw [State.elementExists_iff] at he
    exact ⟨he.1, he.2.1, he.2.2, (Option.some.inj h).symm⟩
  · simp at h

end Sys2Proof.Machine
end

