-- ==== Sys2Proof/Laws/PerInstr.lean ====
section
/-! SUPPORT. A statement made per command: its encoding is selected by the row of the opcode table that carries its mnemonic
(spec/30_encoding.md R67). -/

namespace Sys2Proof.Laws.EncodesItsRow

/-- The command's encoding is selected by a row of R67 with the command's mnemonic. -/
def Statement (i : Instr) : Prop := ∃ r ∈ opcodeTable, r.mnemonic = i.mnemonic ∧ r.selects (encode i) = true

/-- A word joined from four fields lies in a row whose mask and match are joined from four fields. -/
theorem selects_join (name : String) (op high op' high' op'' high'' : Byte) (mid mid' mid'' : BitVec 16)
    (low low' low'' : Word) (h1 : op &&& op'' = op') (h2 : high &&& high'' = high') (h3 : mid &&& mid'' = mid')
    (h4 : low &&& low'' = low') :
    OpcodeRow.selects ⟨name, op' ++ high' ++ mid' ++ low', op'' ++ high'' ++ mid'' ++ low''⟩
      (op ++ high ++ mid ++ low) = true := by
  subst h1 h2 h3 h4
  simp only [OpcodeRow.selects, beq_iff_eq]
  rw [BitVec.and_append, BitVec.and_append, BitVec.and_append]

theorem init : Statement .init :=
  ⟨⟨"INIT", 0x0100000000000000#64, 0xFFFFFFFFFFFFFFFF#64⟩, by decide, rfl, by decide⟩

theorem close : Statement .close :=
  ⟨⟨"CLOSE", 0x0200000000000000#64, 0xFFFFFFFFFFFFFFFF#64⟩, by decide, rfl, by decide⟩

theorem pumpOnce : Statement .pumpOnce :=
  ⟨⟨"PUMPONCE", 0x1000000000000000#64, 0xFFFFFFFFFFFFFFFF#64⟩, by decide, rfl, by decide⟩

theorem run : Statement .run :=
  ⟨⟨"RUN", 0x1100000000000000#64, 0xFFFFFFFFFFFFFFFF#64⟩, by decide, rfl, by decide⟩

theorem stop : Statement .stop :=
  ⟨⟨"STOP", 0x1200000000000000#64, 0xFFFFFFFFFFFFFFFF#64⟩, by decide, rfl, by decide⟩

theorem wrReg (reg : Byte) (data : Word) : Statement (.wrReg reg data) :=
  ⟨⟨"WRREG", 0x20#8 ++ 0#8 ++ 0#16 ++ 0#32, 0xFF#8 ++ 0#8 ++ 0xFFFF#16 ++ 0#32⟩, by decide, rfl,
    selects_join _ _ _ _ _ _ _ _ _ _ _ _ _ rfl (by simp) rfl (by simp)⟩

theorem rdReg (reg : Byte) : Statement (.rdReg reg) :=
  ⟨⟨"RDREG", 0x21#8 ++ 0#8 ++ 0#16 ++ 0#32, 0xFF#8 ++ 0#8 ++ 0xFFFF#16 ++ 0xFFFFFFFF#32⟩, by decide, rfl,
    selects_join _ _ _ _ _ _ _ _ _ _ _ _ _ rfl (by simp) rfl rfl⟩

theorem setPixel (row : BitVec 16) (col : Word) (value : Byte) : Statement (.setPixel row col value) :=
  ⟨⟨"SETPIXEL", 0x30#8 ++ 0#8 ++ 0#16 ++ 0#32, 0xFF#8 ++ 0#8 ++ 0#16 ++ 0#32⟩, by decide, rfl,
    selects_join _ _ _ _ _ _ _ _ _ _ _ _ _ rfl (by simp) (by simp) (by simp)⟩

theorem getRow (row : BitVec 16) : Statement (.getRow row) :=
  ⟨⟨"GETROW", 0x31#8 ++ 0#8 ++ 0#16 ++ 0#32, 0xFF#8 ++ 0xFF#8 ++ 0#16 ++ 0xFFFFFFFF#32⟩, by decide, rfl,
    selects_join _ _ _ _ _ _ _ _ _ _ _ _ _ rfl rfl (by simp) rfl⟩

end Sys2Proof.Laws.EncodesItsRow
end

