-- ==== Sys2Proof/Laws/Picture.lean ====
section
/-! SUPPORT. The laws of the timing record, of the scan position and of a produced scanline. -/

namespace Sys2Proof.Machine

/-! ## Configuration and timing -/

theorem Timing.valid_iff (t : Timing) :
    t.valid = true ↔ 1 ≤ t.spl.toNat ∧ 1 ≤ t.tip.toNat ∧ 1 ≤ t.bp.toNat ∧ 1 ≤ t.act.toNat ∧ 1 ≤ t.fp.toNat ∧
      t.segmentSum ≤ t.spl.toNat + 1 ∧ t.spl.toNat ≤ t.segmentSum + 1 := by
  simp [Timing.valid, and_assoc]

/-- The first three segments fit into the scanline (R18). -/
theorem Timing.active_ends_within {t : Timing} (h : t.valid = true) :
    t.tip.toNat + t.bp.toNat + t.act.toNat ≤ t.spl.toNat := by
  have := (t.valid_iff).1 h
  simp only [Timing.segmentSum] at this
  omega

theorem ConfigRegs.linesLegal_iff (c : ConfigRegs) : c.linesLegal = true ↔ 1 ≤ c.v ∧ c.v ≤ 65535 ∧ c.h ≤ 65535 := by
  simp [ConfigRegs.linesLegal, and_assoc]

theorem ConfigRegs.computeTiming_valid {c : ConfigRegs} {t : Timing} (h : c.computeTiming = some t) : t.valid = true := by
  simp only [ConfigRegs.computeTiming] at h
  split at h; · simp at h
  split at h; · simp at h
  split at h
  · next hv => rw [← Option.some.inj h]; exact hv
  · simp at h

/-- What INIT's checks passing says. -/
theorem State.initCheck_eq_pass {s : State} {t : Timing} (h : s.initCheck = .pass t) :
    s.cfg.linesLegal = true ∧ s.cfg.computeTiming = some t ∧ s.storageExhausted t.act.toNat = false ∧
      s.sinkSetup = .ok := by
  simp only [State.initCheck] at h
  split at h
  · split at h
    · simp at h
    · split at h
      · simp at h
      · split at h <;> simp_all
  · simp at h

/-! ## The row of the present scanline -/

theorem State.rowOutOfBounds_iff (s : State) :
    s.rowOutOfBounds = true ↔ s.scan.mode = .video ∧ ∀ row, s.lineIndex = some row → 483 ≤ row := by
  simp only [State.rowOutOfBounds]
  split
  · simp_all
  · simp_all
  · split <;> simp_all

/-- The scan invariant keeps the row inside the framebuffer (R117). -/
theorem State.ScanInv.row_in_bounds {s : State} (h : s.ScanInv) : s.rowOutOfBounds = false := by
  rw [Bool.eq_false_iff, Ne, State.rowOutOfBounds_iff]
  rintro ⟨hm, hr⟩
  obtain ⟨hl, hmode⟩ := h
  rw [hm] at hmode
  simp only [modeOfLine] at hmode
  split at hmode; · simp at hmode
  split at hmode; · simp at hmode
  have hi : s.lineIndex = some (2 * (s.scan.line.toNat - s.cfg.v - s.cfg.h) + s.scan.field.bit.toNat) := by
    simp [State.lineIndex]; omega
  have := hr _ hi
  have hb : s.scan.field.bit.toNat ≤ 1 := by cases s.scan.field <;> decide
  simp only [ConfigRegs.linesPerPass, pictureLines] at hl
  omega

/-! ## Pairs and scanlines -/

/-- What a pair depends on (R109), and so what a scanline does. -/
theorem State.same_picture {s t : State} (hc : t.cfg = s.cfg) (ht : t.timing = s.timing) (hs : t.scan = s.scan)
    (hf : t.fb = s.fb) (ha : t.fbAlloc = s.fbAlloc) :
    t.pairAt = s.pairAt ∧ t.rowOutOfBounds = s.rowOutOfBounds ∧ t.produce = s.produce := by
  have : t = { s with
      sil := t.sil, life := t.life, stopReq := t.stopReq, lineActive := t.lineActive, runMode := t.runMode, err := t.err,
      sinkSetup := t.sinkSetup, params := t.params, stream := t.stream, responses := t.responses, inputs := t.inputs } := by
    cases s; cases t; simp_all
  rw [this]
  exact ⟨rfl, rfl, rfl⟩

/-- Where the framebuffer element read is inside the ActiveVideo segment (R105). -/
theorem Timing.segmentAt_active {t : Timing} {i : Nat} (h : t.segmentAt i = .activeVideo) :
    t.tip.toNat + t.bp.toNat ≤ i ∧ i < t.tip.toNat + t.bp.toNat + t.act.toNat := by
  simp only [Timing.segmentAt] at h
  split at h; · simp at h
  split at h; · simp at h
  split at h
  · omega
  · simp at h

/-- Once the bounds check has passed, every sample has its pair. -/
theorem State.pairAt_of_in_bounds {s : State} (ha : s.fbAlloc = true) (hb : s.rowOutOfBounds = false) (i : Nat) :
    ∃ p, s.pairAt i = some p := by
  simp only [State.pairAt, Option.map_eq_some_iff]
  suffices ∃ v, s.videoSample i = some v by
    obtain ⟨v, hv⟩ := this
    exact ⟨_, v, hv, rfl⟩
  rw [Bool.eq_false_iff, Ne, State.rowOutOfBounds_iff] at hb
  simp only [State.videoSample]
  split
  · exact ⟨_, rfl⟩
  · next h =>
    simp only [State.elementRead] at h
    split at h
    · next hm _ =>
      simp only [Option.some.injEq, Prod.mk.injEq] at h
      exact absurd ⟨hm, by simp [h.1]⟩ hb
    · simp at h
  · next row c h =>
    simp only [State.elementRead] at h
    split at h
    · next hm hseg =>
      simp only [Option.some.injEq, Prod.mk.injEq] at h
      have hr : row < 483 := by
        by_contra hcon
        exact hb ⟨hm, by simp [h.1]; omega⟩
      have := Timing.segmentAt_active hseg
      rw [State.fbRead_of_exists ha hr (by omega)]
      exact ⟨_, rfl⟩
    · simp at h

/-- A produced scanline, sample by sample. -/
theorem State.produce_eq_some {s : State} {ps : List Pair} (h : s.produce = some ps) :
    ps.length = s.timing.spl.toNat ∧ ∀ i < s.timing.spl.toNat, s.pairAt i = ps[i]? := by
  simp only [State.produce] at h
  split at h
  · simp at h
  · have e := allSome_eq_some.1 h
    have hl : ps.length = s.timing.spl.toNat := by simpa using (congrArg List.length e).symm
    refine ⟨hl, fun i hi => ?_⟩
    have := congrArg (fun l => l[i]?) e
    simp only [List.getElem?_map, List.getElem?_range hi, Option.map_some] at this
    have hi' : i < ps.length := by omega
    simpa [List.getElem?_eq_getElem hi'] using this

end Sys2Proof.Machine
end

