-- ==== Sys2Proof/Laws/State.lean ====
section
/-! SUPPORT. One lemma per field per update, true by rfl, and what a SETPIXEL and a GETROW can do. -/

namespace Sys2Proof.Machine


/-! ### respond -/

@[simp] theorem State.respond_cfg (s : State) (c : Option Instr) (st : Byte) (p : Payload) : (s.respond c st p).cfg = s.cfg := rfl
@[simp] theorem State.respond_timing (s : State) (c : Option Instr) (st : Byte) (p : Payload) : (s.respond c st p).timing = s.timing := rfl
@[simp] theorem State.respond_scan (s : State) (c : Option Instr) (st : Byte) (p : Payload) : (s.respond c st p).scan = s.scan := rfl
@[simp] theorem State.respond_sil (s : State) (c : Option Instr) (st : Byte) (p : Payload) : (s.respond c st p).sil = s.sil := rfl
@[simp] theorem State.respond_life (s : State) (c : Option Instr) (st : Byte) (p : Payload) : (s.respond c st p).life = s.life := rfl
@[simp] theorem State.respond_stopReq (s : State) (c : Option Instr) (st : Byte) (p : Payload) : (s.respond c st p).stopReq = s.stopReq := rfl
@[simp] theorem State.respond_fbAlloc (s : State) (c : Option Instr) (st : Byte) (p : Payload) : (s.respond c st p).fbAlloc = s.fbAlloc := rfl
@[simp] theorem State.respond_lineActive (s : State) (c : Option Instr) (st : Byte) (p : Payload) : (s.respond c st p).lineActive = s.lineActive := rfl
@[simp] theorem State.respond_runMode (s : State) (c : Option Instr) (st : Byte) (p : Payload) : (s.respond c st p).runMode = s.runMode := rfl
@[simp] theorem State.respond_err (s : State) (c : Option Instr) (st : Byte) (p : Payload) : (s.respond c st p).err = s.err := rfl
@[simp] theorem State.respond_fb (s : State) (c : Option Instr) (st : Byte) (p : Payload) : (s.respond c st p).fb = s.fb := rfl
@[simp] theorem State.respond_sinkSetup (s : State) (c : Option Instr) (st : Byte) (p : Payload) : (s.respond c st p).sinkSetup = s.sinkSetup := rfl
@[simp] theorem State.respond_params (s : State) (c : Option Instr) (st : Byte) (p : Payload) : (s.respond c st p).params = s.params := rfl
@[simp] theorem State.respond_stream (s : State) (c : Option Instr) (st : Byte) (p : Payload) : (s.respond c st p).stream = s.stream := rfl
@[simp] theorem State.respond_responses (s : State) (c : Option Instr) (st : Byte) (p : Payload) : (s.respond c st p).responses = s.responses ++ [⟨c, st, p⟩] := rfl
@[simp] theorem State.respond_inputs (s : State) (c : Option Instr) (st : Byte) (p : Payload) : (s.respond c st p).inputs = s.inputs := rfl

/-! ### answer -/

@[simp] theorem State.answer_cfg (s : State) (i : Instr) (st : Status) : (s.answer i st).cfg = s.cfg := rfl
@[simp] theorem State.answer_timing (s : State) (i : Instr) (st : Status) : (s.answer i st).timing = s.timing := rfl
@[simp] theorem State.answer_scan (s : State) (i : Instr) (st : Status) : (s.answer i st).scan = s.scan := rfl
@[simp] theorem State.answer_sil (s : State) (i : Instr) (st : Status) : (s.answer i st).sil = s.sil := rfl
@[simp] theorem State.answer_life (s : State) (i : Instr) (st : Status) : (s.answer i st).life = s.life := rfl
@[simp] theorem State.answer_stopReq (s : State) (i : Instr) (st : Status) : (s.answer i st).stopReq = s.stopReq := rfl
@[simp] theorem State.answer_fbAlloc (s : State) (i : Instr) (st : Status) : (s.answer i st).fbAlloc = s.fbAlloc := rfl
@[simp] theorem State.answer_lineActive (s : State) (i : Instr) (st : Status) : (s.answer i st).lineActive = s.lineActive := rfl
@[simp] theorem State.answer_runMode (s : State) (i : Instr) (st : Status) : (s.answer i st).runMode = s.runMode := rfl
@[simp] theorem State.answer_err (s : State) (i : Instr) (st : Status) : (s.answer i st).err = s.err := rfl
@[simp] theorem State.answer_fb (s : State) (i : Instr) (st : Status) : (s.answer i st).fb = s.fb := rfl
@[simp] theorem State.answer_sinkSetup (s : State) (i : Instr) (st : Status) : (s.answer i st).sinkSetup = s.sinkSetup := rfl
@[simp] theorem State.answer_params (s : State) (i : Instr) (st : Status) : (s.answer i st).params = s.params := rfl
@[simp] theorem State.answer_stream (s : State) (i : Instr) (st : Status) : (s.answer i st).stream = s.stream := rfl
@[simp] theorem State.answer_responses (s : State) (i : Instr) (st : Status) : (s.answer i st).responses = s.responses ++ [⟨some i, st.code, .empty⟩] := rfl
@[simp] theorem State.answer_inputs (s : State) (i : Instr) (st : Status) : (s.answer i st).inputs = s.inputs := rfl

/-! ### halt -/

@[simp] theorem State.halt_cfg (s : State) (e : Status) : (s.halt e).cfg = s.cfg := rfl
@[simp] theorem State.halt_timing (s : State) (e : Status) : (s.halt e).timing = s.timing := rfl
@[simp] theorem State.halt_scan (s : State) (e : Status) : (s.halt e).scan = s.scan := rfl
@[simp] theorem State.halt_sil (s : State) (e : Status) : (s.halt e).sil = s.sil := rfl
@[simp] theorem State.halt_life (s : State) (e : Status) : (s.halt e).life = .halted := rfl
@[simp] theorem State.halt_stopReq (s : State) (e : Status) : (s.halt e).stopReq = s.stopReq := rfl
@[simp] theorem State.halt_fbAlloc (s : State) (e : Status) : (s.halt e).fbAlloc = s.fbAlloc := rfl
@[simp] theorem State.halt_lineActive (s : State) (e : Status) : (s.halt e).lineActive = false := rfl
@[simp] theorem State.halt_runMode (s : State) (e : Status) : (s.halt e).runMode = false := rfl
@[simp] theorem State.halt_err (s : State) (e : Status) : (s.halt e).err = e.code := rfl
@[simp] theorem State.halt_fb (s : State) (e : Status) : (s.halt e).fb = s.fb := rfl
@[simp] theorem State.halt_sinkSetup (s : State) (e : Status) : (s.halt e).sinkSetup = s.sinkSetup := rfl
@[simp] theorem State.halt_params (s : State) (e : Status) : (s.halt e).params = s.params := rfl
@[simp] theorem State.halt_stream (s : State) (e : Status) : (s.halt e).stream = s.stream := rfl
@[simp] theorem State.halt_responses (s : State) (e : Status) : (s.halt e).responses = s.responses ++ [⟨some s.inProgress, e.code, .empty⟩] := rfl
@[simp] theorem State.halt_inputs (s : State) (e : Status) : (s.halt e).inputs = s.inputs := rfl

/-! ### allocate -/

@[simp] theorem State.allocate_cfg (s : State) : (s.allocate).cfg = s.cfg := rfl
@[simp] theorem State.allocate_timing (s : State) : (s.allocate).timing = s.timing := rfl
@[simp] theorem State.allocate_scan (s : State) : (s.allocate).scan = s.scan := rfl
@[simp] theorem State.allocate_sil (s : State) : (s.allocate).sil = s.sil := rfl
@[simp] theorem State.allocate_life (s : State) : (s.allocate).life = s.life := rfl
@[simp] theorem State.allocate_stopReq (s : State) : (s.allocate).stopReq = s.stopReq := rfl
@[simp] theorem State.allocate_fbAlloc (s : State) : (s.allocate).fbAlloc = true := rfl
@[simp] theorem State.allocate_lineActive (s : State) : (s.allocate).lineActive = s.lineActive := rfl
@[simp] theorem State.allocate_runMode (s : State) : (s.allocate).runMode = s.runMode := rfl
@[simp] theorem State.allocate_err (s : State) : (s.allocate).err = s.err := rfl
@[simp] theorem State.allocate_fb (s : State) : (s.allocate).fb = [] := rfl
@[simp] theorem State.allocate_sinkSetup (s : State) : (s.allocate).sinkSetup = s.sinkSetup := rfl
@[simp] theorem State.allocate_params (s : State) : (s.allocate).params = s.params := rfl
@[simp] theorem State.allocate_stream (s : State) : (s.allocate).stream = s.stream := rfl
@[simp] theorem State.allocate_responses (s : State) : (s.allocate).responses = s.responses := rfl
@[simp] theorem State.allocate_inputs (s : State) : (s.allocate).inputs = s.inputs := rfl

/-! ### release -/

@[simp] theorem State.release_cfg (s : State) : (s.release).cfg = s.cfg := rfl
@[simp] theorem State.release_timing (s : State) : (s.release).timing = s.timing := rfl
@[simp] theorem State.release_scan (s : State) : (s.release).scan = s.scan := rfl
@[simp] theorem State.release_sil (s : State) : (s.release).sil = s.sil := rfl
@[simp] theorem State.release_life (s : State) : (s.release).life = s.life := rfl
@[simp] theorem State.release_stopReq (s : State) : (s.release).stopReq = s.stopReq := rfl
@[simp] theorem State.release_fbAlloc (s : State) : (s.release).fbAlloc = false := rfl
@[simp] theorem State.release_lineActive (s : State) : (s.release).lineActive = s.lineActive := rfl
@[simp] theorem State.release_runMode (s : State) : (s.release).runMode = s.runMode := rfl
@[simp] theorem State.release_err (s : State) : (s.release).err = s.err := rfl
@[simp] theorem State.release_fb (s : State) : (s.release).fb = [] := rfl
@[simp] theorem State.release_sinkSetup (s : State) : (s.release).sinkSetup = s.sinkSetup := rfl
@[simp] theorem State.release_params (s : State) : (s.release).params = s.params := rfl
@[simp] theorem State.release_stream (s : State) : (s.release).stream = s.stream := rfl
@[simp] theorem State.release_responses (s : State) : (s.release).responses = s.responses := rfl
@[simp] theorem State.release_inputs (s : State) : (s.release).inputs = s.inputs := rfl

/-! ### advance -/

@[simp] theorem State.advance_cfg (s : State) : (s.advance).cfg = s.cfg := rfl
@[simp] theorem State.advance_timing (s : State) : (s.advance).timing = s.timing := rfl
@[simp] theorem State.advance_scan (s : State) : (s.advance).scan = s.scan.advance s.cfg.v s.cfg.h := rfl
@[simp] theorem State.advance_sil (s : State) : (s.advance).sil = s.sil := rfl
@[simp] theorem State.advance_life (s : State) : (s.advance).life = s.life := rfl
@[simp] theorem State.advance_stopReq (s : State) : (s.advance).stopReq = s.stopReq := rfl
@[simp] theorem State.advance_fbAlloc (s : State) : (s.advance).fbAlloc = s.fbAlloc := rfl
@[simp] theorem State.advance_lineActive (s : State) : (s.advance).lineActive = s.lineActive := rfl
@[simp] theorem State.advance_runMode (s : State) : (s.advance).runMode = s.runMode := rfl
@[simp] theorem State.advance_err (s : State) : (s.advance).err = s.err := rfl
@[simp] theorem State.advance_fb (s : State) : (s.advance).fb = s.fb := rfl
@[simp] theorem State.advance_sinkSetup (s : State) : (s.advance).sinkSetup = s.sinkSetup := rfl
@[simp] theorem State.advance_params (s : State) : (s.advance).params = s.params := rfl
@[simp] theorem State.advance_stream (s : State) : (s.advance).stream = s.stream := rfl
@[simp] theorem State.advance_responses (s : State) : (s.advance).responses = s.responses := rfl
@[simp] theorem State.advance_inputs (s : State) : (s.advance).inputs = s.inputs := rfl

/-! ### hardwareReset -/

@[simp] theorem State.hardwareReset_cfg (s : State) : (s.hardwareReset).cfg = .reset := rfl
@[simp] theorem State.hardwareReset_timing (s : State) : (s.hardwareReset).timing = .zero := rfl
@[simp] theorem State.hardwareReset_scan (s : State) : (s.hardwareReset).scan = .initial := rfl
@[simp] theorem State.hardwareReset_sil (s : State) : (s.hardwareReset).sil = 0#32 := rfl
@[simp] theorem State.hardwareReset_life (s : State) : (s.hardwareReset).life = .closed := rfl
@[simp] theorem State.hardwareReset_stopReq (s : State) : (s.hardwareReset).stopReq = false := rfl
@[simp] theorem State.hardwareReset_fbAlloc (s : State) : (s.hardwareReset).fbAlloc = false := rfl
@[simp] theorem State.hardwareReset_lineActive (s : State) : (s.hardwareReset).lineActive = false := rfl
@[simp] theorem State.hardwareReset_runMode (s : State) : (s.hardwareReset).runMode = false := rfl
@[simp] theorem State.hardwareReset_err (s : State) : (s.hardwareReset).err = 0#8 := rfl
@[simp] theorem State.hardwareReset_fb (s : State) : (s.hardwareReset).fb = [] := rfl
@[simp] theorem State.hardwareReset_sinkSetup (s : State) : (s.hardwareReset).sinkSetup = s.sinkSetup := rfl
@[simp] theorem State.hardwareReset_params (s : State) : (s.hardwareReset).params = s.params := rfl
@[simp] theorem State.hardwareReset_stream (s : State) : (s.hardwareReset).stream = s.stream := rfl
@[simp] theorem State.hardwareReset_responses (s : State) : (s.hardwareReset).responses = s.responses := rfl
@[simp] theorem State.hardwareReset_inputs (s : State) : (s.hardwareReset).inputs = s.inputs := rfl

/-! ### driveSetup -/

@[simp] theorem State.driveSetup_cfg (s : State) (v : SinkSetup) : (s.driveSetup v).cfg = s.cfg := rfl
@[simp] theorem State.driveSetup_timing (s : State) (v : SinkSetup) : (s.driveSetup v).timing = s.timing := rfl
@[simp] theorem State.driveSetup_scan (s : State) (v : SinkSetup) : (s.driveSetup v).scan = s.scan := rfl
@[simp] theorem State.driveSetup_sil (s : State) (v : SinkSetup) : (s.driveSetup v).sil = s.sil := rfl
@[simp] theorem State.driveSetup_life (s : State) (v : SinkSetup) : (s.driveSetup v).life = s.life := rfl
@[simp] theorem State.driveSetup_stopReq (s : State) (v : SinkSetup) : (s.driveSetup v).stopReq = s.stopReq := rfl
@[simp] theorem State.driveSetup_fbAlloc (s : State) (v : SinkSetup) : (s.driveSetup v).fbAlloc = s.fbAlloc := rfl
@[simp] theorem State.driveSetup_lineActive (s : State) (v : SinkSetup) : (s.driveSetup v).lineActive = s.lineActive := rfl
@[simp] theorem State.driveSetup_runMode (s : State) (v : SinkSetup) : (s.driveSetup v).runMode = s.runMode := rfl
@[simp] theorem State.driveSetup_err (s : State) (v : SinkSetup) : (s.driveSetup v).err = s.err := rfl
@[simp] theorem State.driveSetup_fb (s : State) (v : SinkSetup) : (s.driveSetup v).fb = s.fb := rfl
@[simp] theorem State.driveSetup_sinkSetup (s : State) (v : SinkSetup) : (s.driveSetup v).sinkSetup = v := rfl
@[simp] theorem State.driveSetup_params (s : State) (v : SinkSetup) : (s.driveSetup v).params = s.params := rfl
@[simp] theorem State.driveSetup_stream (s : State) (v : SinkSetup) : (s.driveSetup v).stream = s.stream := rfl
@[simp] theorem State.driveSetup_responses (s : State) (v : SinkSetup) : (s.driveSetup v).responses = s.responses := rfl
@[simp] theorem State.driveSetup_inputs (s : State) (v : SinkSetup) : (s.driveSetup v).inputs = s.inputs := rfl

/-! ### present -/

@[simp] theorem State.present_cfg (s : State) (w : CommandWord) : (s.present w).cfg = s.cfg := rfl
@[simp] theorem State.present_timing (s : State) (w : CommandWord) : (s.present w).timing = s.timing := rfl
@[simp] theorem State.present_scan (s : State) (w : CommandWord) : (s.present w).scan = s.scan := rfl
@[simp] theorem State.present_sil (s : State) (w : CommandWord) : (s.present w).sil = s.sil := rfl
@[simp] theorem State.present_life (s : State) (w : CommandWord) : (s.present w).life = s.life := rfl
@[simp] theorem State.present_stopReq (s : State) (w : CommandWord) : (s.present w).stopReq = s.stopReq := rfl
@[simp] theorem State.present_fbAlloc (s : State) (w : CommandWord) : (s.present w).fbAlloc = s.fbAlloc := rfl
@[simp] theorem State.present_lineActive (s : State) (w : CommandWord) : (s.present w).lineActive = s.lineActive := rfl
@[simp] theorem State.present_runMode (s : State) (w : CommandWord) : (s.present w).runMode = s.runMode := rfl
@[simp] theorem State.present_err (s : State) (w : CommandWord) : (s.present w).err = s.err := rfl
@[simp] theorem State.present_fb (s : State) (w : CommandWord) : (s.present w).fb = s.fb := rfl
@[simp] theorem State.present_sinkSetup (s : State) (w : CommandWord) : (s.present w).sinkSetup = s.sinkSetup := rfl
@[simp] theorem State.present_params (s : State) (w : CommandWord) : (s.present w).params = s.params := rfl
@[simp] theorem State.present_stream (s : State) (w : CommandWord) : (s.present w).stream = s.stream := rfl
@[simp] theorem State.present_responses (s : State) (w : CommandWord) : (s.present w).responses = s.responses := rfl
@[simp] theorem State.present_inputs (s : State) (w : CommandWord) : (s.present w).inputs = .command w :: s.inputs := rfl

/-! ### opened -/

@[simp] theorem State.opened_cfg (s : State) (t : Timing) : (s.opened t).cfg = s.cfg := rfl
@[simp] theorem State.opened_timing (s : State) (t : Timing) : (s.opened t).timing = t := rfl
@[simp] theorem State.opened_scan (s : State) (t : Timing) : (s.opened t).scan = .initial := rfl
@[simp] theorem State.opened_sil (s : State) (t : Timing) : (s.opened t).sil = 0#32 := rfl
@[simp] theorem State.opened_life (s : State) (t : Timing) : (s.opened t).life = .ready := rfl
@[simp] theorem State.opened_stopReq (s : State) (t : Timing) : (s.opened t).stopReq = false := rfl
@[simp] theorem State.opened_fbAlloc (s : State) (t : Timing) : (s.opened t).fbAlloc = true := rfl
@[simp] theorem State.opened_lineActive (s : State) (t : Timing) : (s.opened t).lineActive = false := rfl
@[simp] theorem State.opened_runMode (s : State) (t : Timing) : (s.opened t).runMode = false := rfl
@[simp] theorem State.opened_err (s : State) (t : Timing) : (s.opened t).err = 0#8 := rfl
@[simp] theorem State.opened_fb (s : State) (t : Timing) : (s.opened t).fb = [] := rfl
@[simp] theorem State.opened_sinkSetup (s : State) (t : Timing) : (s.opened t).sinkSetup = s.sinkSetup := rfl
@[simp] theorem State.opened_params (s : State) (t : Timing) : (s.opened t).params = s.params := rfl
@[simp] theorem State.opened_stream (s : State) (t : Timing) : (s.opened t).stream = [] := rfl
@[simp] theorem State.opened_responses (s : State) (t : Timing) : (s.opened t).responses = s.responses := rfl
@[simp] theorem State.opened_inputs (s : State) (t : Timing) : (s.opened t).inputs = s.inputs := rfl

/-! ### tornDown -/

@[simp] theorem State.tornDown_cfg (s : State) : (s.tornDown).cfg = s.cfg := rfl
@[simp] theorem State.tornDown_timing (s : State) : (s.tornDown).timing = .zero := rfl
@[simp] theorem State.tornDown_scan (s : State) : (s.tornDown).scan = .initial := rfl
@[simp] theorem State.tornDown_sil (s : State) : (s.tornDown).sil = 0#32 := rfl
@[simp] theorem State.tornDown_life (s : State) : (s.tornDown).life = .closed := rfl
@[simp] theorem State.tornDown_stopReq (s : State) : (s.tornDown).stopReq = false := rfl
@[simp] theorem State.tornDown_fbAlloc (s : State) : (s.tornDown).fbAlloc = false := rfl
@[simp] theorem State.tornDown_lineActive (s : State) : (s.tornDown).lineActive = false := rfl
@[simp] theorem State.tornDown_runMode (s : State) : (s.tornDown).runMode = false := rfl
@[simp] theorem State.tornDown_err (s : State) : (s.tornDown).err = 0#8 := rfl
@[simp] theorem State.tornDown_fb (s : State) : (s.tornDown).fb = [] := rfl
@[simp] theorem State.tornDown_sinkSetup (s : State) : (s.tornDown).sinkSetup = s.sinkSetup := rfl
@[simp] theorem State.tornDown_params (s : State) : (s.tornDown).params = s.params := rfl
@[simp] theorem State.tornDown_stream (s : State) : (s.tornDown).stream = s.stream := rfl
@[simp] theorem State.tornDown_responses (s : State) : (s.tornDown).responses = s.responses := rfl
@[simp] theorem State.tornDown_inputs (s : State) : (s.tornDown).inputs = s.inputs := rfl

/-! ### runStopped -/

@[simp] theorem State.runStopped_cfg (s : State) : (s.runStopped).cfg = s.cfg := rfl
@[simp] theorem State.runStopped_timing (s : State) : (s.runStopped).timing = s.timing := rfl
@[simp] theorem State.runStopped_scan (s : State) : (s.runStopped).scan = s.scan := rfl
@[simp] theorem State.runStopped_sil (s : State) : (s.runStopped).sil = s.sil := rfl
@[simp] theorem State.runStopped_life (s : State) : (s.runStopped).life = .ready := rfl
@[simp] theorem State.runStopped_stopReq (s : State) : (s.runStopped).stopReq = false := rfl
@[simp] theorem State.runStopped_fbAlloc (s : State) : (s.runStopped).fbAlloc = s.fbAlloc := rfl
@[simp] theorem State.runStopped_lineActive (s : State) : (s.runStopped).lineActive = s.lineActive := rfl
@[simp] theorem State.runStopped_runMode (s : State) : (s.runStopped).runMode = false := rfl
@[simp] theorem State.runStopped_err (s : State) : (s.runStopped).err = s.err := rfl
@[simp] theorem State.runStopped_fb (s : State) : (s.runStopped).fb = s.fb := rfl
@[simp] theorem State.runStopped_sinkSetup (s : State) : (s.runStopped).sinkSetup = s.sinkSetup := rfl
@[simp] theorem State.runStopped_params (s : State) : (s.runStopped).params = s.params := rfl
@[simp] theorem State.runStopped_stream (s : State) : (s.runStopped).stream = s.stream := rfl
@[simp] theorem State.runStopped_responses (s : State) : (s.runStopped).responses = s.responses ++ [⟨some .run, Status.ok.code, .empty⟩] := rfl
@[simp] theorem State.runStopped_inputs (s : State) : (s.runStopped).inputs = s.inputs := rfl

/-! ### SETPIXEL and GETROW -/

/-- Everything a SETPIXEL can do. -/
theorem State.setPixel_cases (s : State) (row : BitVec 16) (col : Word) (value : Byte) :
    (∃ e : Status, s.setPixel row col value = s.answer (.setPixel row col value) e) ∨
    (s.life ≠ .closed ∧ s.elementExists row.toNat col.toNat = true ∧
      s.setPixel row col value =
        ({ s with fb := s.fb.write (fbKey row.toNat col.toNat) value }).answer (.setPixel row col value) .ok) := by
  unfold State.setPixel State.fbWrite
  split
  · exact .inl ⟨.badState, rfl⟩
  all_goals
    next hl =>
    by_cases he : s.elementExists row.toNat col.toNat = true
    · rw [if_pos he]
      exact .inr ⟨by simp [hl], he, rfl⟩
    · rw [if_neg he]
      exact .inl ⟨.indexError, rfl⟩

/-- Everything the answer to a GETROW outside CLOSED can be. -/
theorem State.answerRow_cases (s : State) (row : BitVec 16) (bytes : Option (List Byte)) :
    ∃ (e : Status) (p : Payload), s.answerRow row bytes = s.respond (some (.getRow row)) e.code p := by
  cases bytes
  · exact ⟨.indexError, _, rfl⟩
  · exact ⟨.ok, _, rfl⟩

/-- Everything a GETROW can do: answer. -/
theorem State.getRow_cases (s : State) (row : BitVec 16) :
    ∃ (e : Status) (p : Payload), s.getRow row = s.respond (some (.getRow row)) e.code p := by
  unfold State.getRow
  split
  · exact ⟨.badState, _, rfl⟩
  all_goals exact s.answerRow_cases row _

@[simp] theorem State.interveneAll_nil (s : State) : s.interveneAll [] = s := rfl
@[simp] theorem State.interveneAll_cons (s : State) (w : Intervening) (writes : List Intervening) :
    s.interveneAll (w :: writes) = (s.intervene w).interveneAll writes := rfl
theorem State.interveneAll_append (s : State) (writes more : List Intervening) :
    s.interveneAll (writes ++ more) = (s.interveneAll writes).interveneAll more := by
  simp [State.interveneAll]

/-- What responses and single-element writes keep, SETPIXELs in turn keep. -/
theorem State.interveneAll_keeps {P : State → Prop} {s : State} (writes : List Intervening) (h : P s)
    (respond : ∀ (t : State) c st p, P t → P (t.respond c st p))
    (write : ∀ t : State, ∀ w ∈ writes, t.life ≠ .closed → t.elementExists w.row.toNat w.col.toNat = true → P t →
      P { t with fb := t.fb.write (fbKey w.row.toNat w.col.toNat) w.value }) :
    P (s.interveneAll writes) := by
  induction writes generalizing s with
  | nil => exact h
  | cons w writes ih =>
    refine ih ?_ fun t v hv => write t v (List.mem_cons_of_mem _ hv)
    rcases s.setPixel_cases w.row w.col w.value with ⟨e, he⟩ | ⟨hl, hx, he⟩
    · exact (congrArg P he).mpr (respond _ _ _ _ h)
    · exact (congrArg P he).mpr (respond _ _ _ _ (write s w List.mem_cons_self hl hx h))

/-- What responses and single-element writes keep, a GETROW with SETPIXELs between its reads keeps. -/
theorem State.getRowAmong_keeps {P : State → Prop} {s : State} (row : BitVec 16) (writes : List Intervening) (h : P s)
    (respond : ∀ (t : State) c st p, P t → P (t.respond c st p))
    (write : ∀ t : State, ∀ w ∈ writes, t.life ≠ .closed → t.elementExists w.row.toNat w.col.toNat = true → P t →
      P { t with fb := t.fb.write (fbKey w.row.toNat w.col.toNat) w.value }) :
    P (s.getRowAmong row writes) := by
  unfold State.getRowAmong
  split
  case h_4 =>
    obtain ⟨e, p, he⟩ := s.answerRow_cases row (State.rowBytesAmong row.toNat writes s)
    exact State.interveneAll_keeps writes (he ▸ respond _ _ _ _ h) respond write
  all_goals
    obtain ⟨e, p, he⟩ := s.getRow_cases row
    exact State.interveneAll_keeps writes (he ▸ respond _ _ _ _ h) respond write

/-- SETPIXELs in turn touch the store and the responses alone. -/
theorem State.interveneAll_frame (s : State) (writes : List Intervening) :
    s.interveneAll writes =
      { s with fb := (s.interveneAll writes).fb, responses := (s.interveneAll writes).responses } :=
  State.interveneAll_keeps (P := fun t => t = { s with fb := t.fb, responses := t.responses }) writes rfl
    (fun _ _ _ _ h => by rw [h]; rfl) (fun _ _ _ _ _ h => by rw [h])

/-- A GETROW with SETPIXELs between its reads touches the store and the responses alone. -/
theorem State.getRowAmong_frame (s : State) (row : BitVec 16) (writes : List Intervening) :
    s.getRowAmong row writes =
      { s with fb := (s.getRowAmong row writes).fb, responses := (s.getRowAmong row writes).responses } :=
  State.getRowAmong_keeps (P := fun t => t = { s with fb := t.fb, responses := t.responses }) row writes rfl
    (fun _ _ _ _ h => by rw [h]; rfl) (fun _ _ _ _ _ h => by rw [h])

@[simp] theorem State.interveneAll_cfg (s : State) (writes : List Intervening) : (s.interveneAll writes).cfg = s.cfg := by
  rw [s.interveneAll_frame]
@[simp] theorem State.interveneAll_timing (s : State) (writes : List Intervening) : (s.interveneAll writes).timing = s.timing := by
  rw [s.interveneAll_frame]
@[simp] theorem State.interveneAll_scan (s : State) (writes : List Intervening) : (s.interveneAll writes).scan = s.scan := by
  rw [s.interveneAll_frame]
@[simp] theorem State.interveneAll_sil (s : State) (writes : List Intervening) : (s.interveneAll writes).sil = s.sil := by
  rw [s.interveneAll_frame]
@[simp] theorem State.interveneAll_life (s : State) (writes : List Intervening) : (s.interveneAll writes).life = s.life := by
  rw [s.interveneAll_frame]
@[simp] theorem State.interveneAll_stopReq (s : State) (writes : List Intervening) : (s.interveneAll writes).stopReq = s.stopReq := by
  rw [s.interveneAll_frame]
@[simp] theorem State.interveneAll_fbAlloc (s : State) (writes : List Intervening) : (s.interveneAll writes).fbAlloc = s.fbAlloc := by
  rw [s.interveneAll_frame]
@[simp] theorem State.interveneAll_lineActive (s : State) (writes : List Intervening) : (s.interveneAll writes).lineActive = s.lineActive := by
  rw [s.interveneAll_frame]
@[simp] theorem State.interveneAll_runMode (s : State) (writes : List Intervening) : (s.interveneAll writes).runMode = s.runMode := by
  rw [s.interveneAll_frame]
@[simp] theorem State.interveneAll_err (s : State) (writes : List Intervening) : (s.interveneAll writes).err = s.err := by
  rw [s.interveneAll_frame]
@[simp] theorem State.interveneAll_sinkSetup (s : State) (writes : List Intervening) : (s.interveneAll writes).sinkSetup = s.sinkSetup := by
  rw [s.interveneAll_frame]
@[simp] theorem State.interveneAll_params (s : State) (writes : List Intervening) : (s.interveneAll writes).params = s.params := by
  rw [s.interveneAll_frame]
@[simp] theorem State.interveneAll_stream (s : State) (writes : List Intervening) : (s.interveneAll writes).stream = s.stream := by
  rw [s.interveneAll_frame]
@[simp] theorem State.interveneAll_inputs (s : State) (writes : List Intervening) : (s.interveneAll writes).inputs = s.inputs := by
  rw [s.interveneAll_frame]

@[simp] theorem State.getRowAmong_cfg (s : State) (row : BitVec 16) (writes : List Intervening) : (s.getRowAmong row writes).cfg = s.cfg := by
  rw [s.getRowAmong_frame]
@[simp] theorem State.getRowAmong_timing (s : State) (row : BitVec 16) (writes : List Intervening) : (s.getRowAmong row writes).timing = s.timing := by
  rw [s.getRowAmong_frame]
@[simp] theorem State.getRowAmong_scan (s : State) (row : BitVec 16) (writes : List Intervening) : (s.getRowAmong row writes).scan = s.scan := by
  rw [s.getRowAmong_frame]
@[simp] theorem State.getRowAmong_sil (s : State) (row : BitVec 16) (writes : List Intervening) : (s.getRowAmong row writes).sil = s.sil := by
  rw [s.getRowAmong_frame]
@[simp] theorem State.getRowAmong_life (s : State) (row : BitVec 16) (writes : List Intervening) : (s.getRowAmong row writes).life = s.life := by
  rw [s.getRowAmong_frame]
@[simp] theorem State.getRowAmong_stopReq (s : State) (row : BitVec 16) (writes : List Intervening) : (s.getRowAmong row writes).stopReq = s.stopReq := by
  rw [s.getRowAmong_frame]
@[simp] theorem State.getRowAmong_fbAlloc (s : State) (row : BitVec 16) (writes : List Intervening) : (s.getRowAmong row writes).fbAlloc = s.fbAlloc := by
  rw [s.getRowAmong_frame]
@[simp] theorem State.getRowAmong_lineActive (s : State) (row : BitVec 16) (writes : List Intervening) : (s.getRowAmong row writes).lineActive = s.lineActive := by
  rw [s.getRowAmong_frame]
@[simp] theorem State.getRowAmong_runMode (s : State) (row : BitVec 16) (writes : List Intervening) : (s.getRowAmong row writes).runMode = s.runMode := by
  rw [s.getRowAmong_frame]
@[simp] theorem State.getRowAmong_err (s : State) (row : BitVec 16) (writes : List Intervening) : (s.getRowAmong row writes).err = s.err := by
  rw [s.getRowAmong_frame]
@[simp] theorem State.getRowAmong_sinkSetup (s : State) (row : BitVec 16) (writes : List Intervening) : (s.getRowAmong row writes).sinkSetup = s.sinkSetup := by
  rw [s.getRowAmong_frame]
@[simp] theorem State.getRowAmong_params (s : State) (row : BitVec 16) (writes : List Intervening) : (s.getRowAmong row writes).params = s.params := by
  rw [s.getRowAmong_frame]
@[simp] theorem State.getRowAmong_stream (s : State) (row : BitVec 16) (writes : List Intervening) : (s.getRowAmong row writes).stream = s.stream := by
  rw [s.getRowAmong_frame]
@[simp] theorem State.getRowAmong_inputs (s : State) (row : BitVec 16) (writes : List Intervening) : (s.getRowAmong row writes).inputs = s.inputs := by
  rw [s.getRowAmong_frame]

theorem State.getRow_open {s : State} (h : s.life ≠ .closed) (row : BitVec 16) :
    s.getRow row = s.answerRow row (s.rowBytes row.toNat) := by
  unfold State.getRow
  split <;> first | rfl | (next hc => exact absurd hc h)

theorem State.getRowAmong_running {s : State} (h : s.life = .running) (row : BitVec 16) (writes : List Intervening) :
    s.getRowAmong row writes = (s.answerRow row (State.rowBytesAmong row.toNat writes s)).interveneAll writes := by
  unfold State.getRowAmong
  split <;> first | rfl | (next hc => rw [hc] at h; cases h)

/-- Outside RUNNING it is the commands one after the other. -/
theorem State.getRowAmong_idle {s : State} (h : s.life ≠ .running) (row : BitVec 16) (writes : List Intervening) :
    s.getRowAmong row writes = (s.getRow row).interveneAll writes := by
  unfold State.getRowAmong
  split <;> first | rfl | (next hc => exact absurd hc h)

/-- With no SETPIXEL after it, it is the GETROW alone. -/
@[simp] theorem State.getRowAmong_nil (s : State) (row : BitVec 16) : s.getRowAmong row [] = s.getRow row := by
  have h : State.rowBytesAmong row.toNat [] s = s.rowBytes row.toNat := by
    cases hb : s.rowBytes row.toNat with
    | none => simp [State.rowBytesAmong, hb]
    | some bs =>
      simp only [State.rowBytesAmong, State.rowBytesFrom, hb, Option.map_some]
      rw [List.take_append_drop]
  unfold State.getRowAmong State.getRow
  split <;> simp_all

/-- A SETPIXEL between the reads of a GETROW is the command. -/
theorem exec_intervening (w : Intervening) (s : State) :
    exec (.setPixel w.row w.col w.value) s = .next (s.intervene w) := rfl

end Sys2Proof.Machine
end

