-- ==== Sys2Proof/Laws/Step.lean ====
section
/-! SUPPORT. What a step, a command and an encoder step can do, each said once: later proofs take these cases apart instead of
unfolding the machine. -/

namespace Sys2Proof.Machine

/-- With events to come, a step is the first of them. -/
theorem step_cons {s : State} {e : Input} {rest : List Input} (h : s.inputs = e :: rest) :
    step s = takeEvent e { s with inputs := rest } := by
  simp [step, nextEvent, h]

/-- Everything a step can do: nothing where no event is to come, else what its first event does. -/
theorem step_cases {s t : State} (h : step s = .next t) :
    s.inputs = [] ∧ t = s ∨
    ∃ e rest, s.inputs = e :: rest ∧
      ((∃ w i, e = .command w ∧ decode w = .command i ∧ exec i { s with inputs := rest } = .next t) ∨
       (∃ w why, e = .command w ∧ decode w = .illegal why ∧
          t = State.respond { s with inputs := rest } none Status.badCmd.code .empty) ∨
       (∃ a, e = .encoder a ∧ t = State.encoderStep { s with inputs := rest } a) ∨
       (∃ row writes, e = .getRowAmong row writes ∧ t = State.getRowAmong { s with inputs := rest } row writes) ∨
       (∃ v, e = .setup v ∧ t = { s with inputs := rest, sinkSetup := v }) ∨
       (e = .reset ∧ t = State.hardwareReset { s with inputs := rest })) := by
  simp only [step, nextEvent] at h
  split at h
  · next hi => exact .inl ⟨hi, (Host.Outcome.next.inj h).symm⟩
  · next e rest hi =>
    refine .inr ⟨e, rest, hi, ?_⟩
    cases e with
    | command w =>
      simp only [takeEvent, serve] at h
      split at h
      · next i hd => exact .inl ⟨w, i, rfl, hd, h⟩
      · next why hd => exact .inr (.inl ⟨w, why, rfl, hd, (Host.Outcome.next.inj h).symm⟩)
    | encoder a => exact .inr (.inr (.inl ⟨a, rfl, (Host.Outcome.next.inj h).symm⟩))
    | getRowAmong row writes => exact .inr (.inr (.inr (.inl ⟨row, writes, rfl, (Host.Outcome.next.inj h).symm⟩)))
    | setup v => exact .inr (.inr (.inr (.inr (.inl ⟨v, rfl, (Host.Outcome.next.inj h).symm⟩))))
    | reset => exact .inr (.inr (.inr (.inr (.inr ⟨rfl, (Host.Outcome.next.inj h).symm⟩))))

/-- Everything a command can do: answer and leave the rest alone, or have the one effect of its rule. -/
theorem exec_cases (i : Instr) (s : State) :
    ∃ t, exec i s = .next t ∧
      ((∃ st p, t = s.respond (some i) st p ∧ ((∃ e : Status, st = e.code) ∨ s.life = .halted ∧ st = s.err)) ∨
       (i = .init ∧ s.life = .closed ∧ ∃ tm, s.initCheck = .pass tm ∧ t = (s.opened tm).answer .init .ok) ∨
       (i = .close ∧ s.life ≠ .running ∧ t = s.tornDown.answer .close .ok) ∨
       (i = .pumpOnce ∧ s.life = .ready ∧ t = { s with life := .running, runMode := false }) ∨
       (i = .run ∧ s.life = .ready ∧ t = { s with life := .running, runMode := true }) ∨
       (i = .stop ∧ s.life ≠ .closed ∧ t = ({ s with stopReq := true }).answer .stop .ok) ∨
       (∃ reg data cfg, i = .wrReg reg data ∧ s.life = .closed ∧ s.cfg.writeNumber reg data = some cfg ∧
          t = ({ s with cfg := cfg }).answer (.wrReg reg data) .ok) ∨
       ∃ row col value, i = .setPixel row col value ∧ s.life ≠ .closed ∧
          s.elementExists row.toNat col.toNat = true ∧
          t = ({ s with fb := s.fb.write (fbKey row.toNat col.toNat) value }).answer (.setPixel row col value) .ok) := by
  cases i with
  | init =>
    show ∃ t, execInit s = .next t ∧ _
    unfold execInit
    split
    · exact ⟨_, rfl, .inl ⟨_, _, rfl, .inl ⟨.badState, rfl⟩⟩⟩
    · exact ⟨_, rfl, .inl ⟨_, _, rfl, .inl ⟨.badState, rfl⟩⟩⟩
    · exact ⟨_, rfl, .inl ⟨_, _, rfl, .inl ⟨.badState, rfl⟩⟩⟩
    · next hl =>
      split
      · next e _ => exact ⟨_, rfl, .inl ⟨_, _, rfl, .inl ⟨e, rfl⟩⟩⟩
      · next tm hc => exact ⟨_, rfl, .inr (.inl ⟨rfl, hl, tm, hc, rfl⟩)⟩
  | close =>
    show ∃ t, execClose s = .next t ∧ _
    unfold execClose
    split
    · exact ⟨_, rfl, .inl ⟨_, _, rfl, .inl ⟨.badState, rfl⟩⟩⟩
    all_goals next hl => exact ⟨_, rfl, .inr (.inr (.inl ⟨rfl, by simp [hl], rfl⟩))⟩
  | pumpOnce =>
    show ∃ t, execPumpOnce s = .next t ∧ _
    unfold execPumpOnce
    split
    · exact ⟨_, rfl, .inl ⟨_, _, rfl, .inl ⟨.badState, rfl⟩⟩⟩
    · exact ⟨_, rfl, .inl ⟨_, _, rfl, .inl ⟨.badState, rfl⟩⟩⟩
    · next hl => exact ⟨_, rfl, .inl ⟨_, _, rfl, .inr ⟨hl, rfl⟩⟩⟩
    · next hl => exact ⟨_, rfl, .inr (.inr (.inr (.inl ⟨rfl, hl, rfl⟩)))⟩
  | run =>
    show ∃ t, execRun s = .next t ∧ _
    unfold execRun
    split
    · exact ⟨_, rfl, .inl ⟨_, _, rfl, .inl ⟨.badState, rfl⟩⟩⟩
    · exact ⟨_, rfl, .inl ⟨_, _, rfl, .inl ⟨.badState, rfl⟩⟩⟩
    · next hl => exact ⟨_, rfl, .inl ⟨_, _, rfl, .inr ⟨hl, rfl⟩⟩⟩
    · next hl => exact ⟨_, rfl, .inr (.inr (.inr (.inr (.inl ⟨rfl, hl, rfl⟩))))⟩
  | stop =>
    show ∃ t, execStop s = .next t ∧ _
    unfold execStop
    split
    · exact ⟨_, rfl, .inl ⟨_, _, rfl, .inl ⟨.badState, rfl⟩⟩⟩
    all_goals next hl => exact ⟨_, rfl, .inr (.inr (.inr (.inr (.inr (.inl ⟨rfl, by simp [hl], rfl⟩)))))⟩
  | wrReg reg data =>
    show ∃ t, execWrReg reg data s = .next t ∧ _
    unfold execWrReg
    split
    · exact ⟨_, rfl, .inl ⟨_, _, rfl, .inl ⟨.badCmd, rfl⟩⟩⟩
    · next cfg hc =>
      split
      · next hl => exact ⟨_, rfl, .inr (.inr (.inr (.inr (.inr (.inr (.inl ⟨_, _, cfg, rfl, hl, hc, rfl⟩))))))⟩
      all_goals exact ⟨_, rfl, .inl ⟨_, _, rfl, .inl ⟨.badState, rfl⟩⟩⟩
  | rdReg reg =>
    show ∃ t, execRdReg reg s = .next t ∧ _
    unfold execRdReg
    split
    · exact ⟨_, rfl, .inl ⟨_, _, rfl, .inl ⟨.badCmd, rfl⟩⟩⟩
    · exact ⟨_, rfl, .inl ⟨_, _, rfl, .inl ⟨.ok, rfl⟩⟩⟩
  | setPixel row col value =>
    refine ⟨s.setPixel row col value, rfl, ?_⟩
    rcases s.setPixel_cases row col value with ⟨e, he⟩ | ⟨hl, hx, he⟩
    · exact .inl ⟨_, _, he, .inl ⟨e, rfl⟩⟩
    · exact .inr (.inr (.inr (.inr (.inr (.inr (.inr ⟨_, _, _, rfl, hl, hx, he⟩))))))
  | getRow row =>
    obtain ⟨e, p, he⟩ := s.getRow_cases row
    exact ⟨s.getRow row, rfl, .inl ⟨_, p, he, .inl ⟨e, rfl⟩⟩⟩

/-- Everything a step of the encoder can do. -/
theorem State.encoderStep_cases (s : State) (a : SinkAnswer) :
    (s.life ≠ .running ∧ s.encoderStep a = s) ∨
    (s.life = .running ∧ s.lineActive = true ∧ s.sil.toNat < s.timing.spl.toNat ∧
      ((s.pairAt s.sil.toNat = none ∧ s.encoderStep a = s.halt .consistencyError) ∨
       ∃ p, s.pairAt s.sil.toNat = some p ∧
         ((a = .accept ∧ s.encoderStep a = { s with stream := s.stream ++ [p], sil := s.sil + 1#32 }) ∨
          (a = .fail ∧ s.encoderStep a = s.halt .sinkError) ∨ (a = .stall ∧ s.encoderStep a = s)))) ∨
    (s.life = .running ∧ s.lineActive = true ∧ s.timing.spl.toNat ≤ s.sil.toNat ∧ s.encoderStep a = s.lineEnd) ∨
    (s.life = .running ∧ s.lineActive = false ∧ s.runMode = true ∧ s.stopReq = true ∧ s.encoderStep a = s.runStopped) ∨
    (s.life = .running ∧ s.lineActive = false ∧ (s.runMode = true → s.stopReq = false) ∧
      ((s.rowOutOfBounds = true ∧ s.encoderStep a = s.halt .consistencyError) ∨
       (s.rowOutOfBounds = false ∧ s.encoderStep a = { s with lineActive := true, sil := 0#32 }))) := by
  by_cases hl : s.life = .running
  · cases ha : s.lineActive
    · by_cases hr : s.runMode = true ∧ s.stopReq = true
      · exact .inr (.inr (.inr (.inl ⟨hl, rfl, hr.1, hr.2, by simp [State.encoderStep, hl, ha, hr.1, hr.2]⟩)))
      · have hn : (s.runMode && s.stopReq) = false := by simpa using hr
        refine .inr (.inr (.inr (.inr ⟨hl, rfl, fun h => by simpa [h] using hr, ?_⟩)))
        cases hb : s.rowOutOfBounds <;> simp [State.encoderStep, hl, ha, hn, State.lineStart, hb]
    · by_cases hs : s.sil.toNat < s.timing.spl.toNat
      · refine .inr (.inl ⟨hl, rfl, hs, ?_⟩)
        cases hp : s.pairAt s.sil.toNat
        · simp [State.encoderStep, hl, ha, hs, State.sampleStep, hp]
        · cases a <;> simp [State.encoderStep, hl, ha, hs, State.sampleStep, hp]
      · exact .inr (.inr (.inl ⟨hl, rfl, Nat.le_of_not_lt hs, by simp [State.encoderStep, hl, ha, hs]⟩))
  · refine .inl ⟨hl, ?_⟩
    cases h : s.life <;> simp_all [State.encoderStep]

/-- The line end in full: a RUN goes on, a PUMPONCE is done. -/
theorem State.lineEnd_eq (s : State) :
    (s.runMode = true ∧
      s.lineEnd = { s with scan := s.scan.advance s.cfg.v s.cfg.h, sil := 0#32, lineActive := false }) ∨
    (s.runMode = false ∧
      s.lineEnd = ({ s with
        scan := s.scan.advance s.cfg.v s.cfg.h, sil := 0#32, lineActive := false, life := .ready }).answer .pumpOnce .ok) := by
  cases h : s.runMode <;> simp [State.lineEnd, State.afterLine, State.advance, h]

/-! ## A GETROW with SETPIXELs between its reads -/

/-- Everything a GETROW of an existing row reads from column `next` on: each byte as it stands after the SETPIXELs before it. -/
theorem State.rowBytesFrom_spec {row : Nat} (hr : row < 483) (writes : List Intervening) (next : Nat) {s : State}
    (ha : s.fbAlloc = true) :
    ∃ bs, State.rowBytesFrom row writes next s = some bs ∧ bs.length = s.timing.act.toNat - next ∧
      ∀ (before after : List Intervening) (c : Nat), writes = before ++ after → c < s.timing.act.toNat →
        next + (before.map Intervening.reads).sum ≤ c →
        (∀ w later, after = w :: later → c < next + (before.map Intervening.reads).sum + w.reads) →
        bs[c - next]? = (s.interveneAll before).fbRead row c := by
  have hb := State.rowBytes_of_exists ha hr
  obtain ⟨-, -, hlen, hread⟩ := State.rowBytes_eq_some hb
  induction writes generalizing next s with
  | nil =>
    refine ⟨_, by rw [State.rowBytesFrom, hb, Option.map_some], by rw [List.length_drop, hlen], ?_⟩
    intro before after c hw hc hn _
    obtain ⟨rfl, -⟩ := List.append_eq_nil_iff.1 hw.symm
    simp only [List.map_nil, List.sum_nil, Nat.add_zero] at hn
    rw [List.getElem?_drop, Nat.add_sub_cancel' hn, State.interveneAll_nil, hread c hc]
  | cons w writes ih =>
    have ha' : (s.intervene w).fbAlloc = true := (s.interveneAll_fbAlloc [w]).trans ha
    have ht : (s.intervene w).timing = s.timing := s.interveneAll_timing [w]
    have hb' := State.rowBytes_of_exists ha' hr
    obtain ⟨-, -, hlen', hread'⟩ := State.rowBytes_eq_some hb'
    obtain ⟨later, hl, hll, hlr⟩ := ih (next + w.reads) ha' hb' hlen' hread'
    rw [ht] at hll hlr
    refine ⟨_, by rw [State.rowBytesFrom, hb, hl],
      by simp only [List.length_append, List.length_take, List.length_drop, hlen, hll]; omega, ?_⟩
    intro before after c hw hc hn ha
    cases before with
    | nil =>
      have := ha w writes hw.symm
      simp only [List.map_nil, List.sum_nil, Nat.add_zero] at hn this
      rw [List.getElem?_append_left (by simp only [List.length_take, List.length_drop, hlen]; omega),
        List.getElem?_take_of_lt (by omega), List.getElem?_drop, Nat.add_sub_cancel' hn, State.interveneAll_nil, hread c hc]
    | cons v before =>
      obtain ⟨rfl, hrest⟩ := List.cons.inj hw
      simp only [List.map_cons, List.sum_cons] at hn ha
      rw [List.getElem?_append_right (by simp only [List.length_take, List.length_drop, hlen]; omega),
        State.interveneAll_cons, ← hlr before after c hrest hc (by omega) fun x l hx => by have := ha x l hx; omega]
      congr 1
      simp only [List.length_take, List.length_drop, hlen]; omega

/-- Everything a GETROW of an existing row reads with SETPIXELs between its reads: column 0 before them all, and each later
byte as it stands after the SETPIXELs before it. -/
theorem State.rowBytesAmong_spec {row : Nat} (hr : row < 483) (writes : List Intervening) {s : State}
    (ha : s.fbAlloc = true) :
    ∃ bs, State.rowBytesAmong row writes s = some bs ∧ bs.length = s.timing.act.toNat ∧
      ∀ (before after : List Intervening) (c : Nat), writes = before ++ after → c < s.timing.act.toNat →
        (before ≠ [] → 1 + (before.map Intervening.reads).sum ≤ c) →
        (∀ w later, after = w :: later → c < 1 + (before.map Intervening.reads).sum + w.reads) →
        bs[c]? = (s.interveneAll before).fbRead row c := by
  have hb := State.rowBytes_of_exists ha hr
  obtain ⟨-, -, hlen, hread⟩ := State.rowBytes_eq_some hb
  obtain ⟨later, hl, hll, hlr⟩ := State.rowBytesFrom_spec hr writes 1 ha
  refine ⟨_, by rw [State.rowBytesAmong, hb, hl], by
    simp only [List.length_append, List.length_take, hlen, hll]; omega, fun before after c hw hc hn hp => ?_⟩
  cases c with
  | zero =>
    have h0 : before = [] := by
      by_cases h : before = []
      · exact h
      · exact absurd (hn h) (by omega)
    rw [List.getElem?_append_left (by simp only [List.length_take, hlen]; omega), List.getElem?_take_of_lt (by omega), h0,
      State.interveneAll_nil, hread 0 hc]
  | succ c =>
    have h1 : 1 + (before.map Intervening.reads).sum ≤ c + 1 := by
      by_cases h : before = []
      · simp [h]
      · exact hn h
    rw [List.getElem?_append_right (by simp only [List.length_take, hlen]; omega), ← hlr before after (c + 1) hw hc h1 hp]
    congr 1
    simp only [List.length_take, hlen]; omega

/-! ## Runs of several steps -/

theorem stepsFrom_succ {s t : State} (k : Nat) (h : step s = .next t) : stepsFrom (k + 1) s = stepsFrom k t := by
  simp only [stepsFrom, h]

theorem stepsFrom_add {s t : State} (a b : Nat) (h : stepsFrom a s = .next t) :
    stepsFrom (a + b) s = stepsFrom b t := by
  induction a generalizing s with
  | zero =>
    simp only [stepsFrom, Host.Outcome.next.injEq] at h
    rw [h, Nat.zero_add]
  | succ a ih =>
    simp only [stepsFrom] at h
    split at h
    · next hs => rw [Nat.add_right_comm, stepsFrom_succ _ hs]; exact ih h
    · simp at h
    · simp at h

/-- `stepsFrom` is the host's run of the machine. -/
theorem stepsFrom_eq_run (k : Nat) (s : State) : stepsFrom k s = core.run k s := by
  induction k generalizing s with
  | zero => rfl
  | succ k ih =>
    cases h : step s with
    | next t =>
      have h' : core.step s = .next t := h
      simp only [stepsFrom, Host.Core.run, h, h']
      exact ih t
    | fault f => cases f
    | refused r =>
      have h' : core.step s = .refused r := h
      simp only [stepsFrom, Host.Core.run, h, h']
      rfl

end Sys2Proof.Machine
end

