-- ==== Sys2Proof/Tests/Slice0.lean ====
section
/-! SUPPORT. Small tests, with results taken from spec/95_test_vectors.md (the section is named), and a witness for the
hypotheses of every obligation that has some. -/

namespace Sys2Proof.Tests

open Sys2Proof.Machine

/-! ## States the tests start from -/

/-- The configuration of program P1: tiny timing, V = 1, H = 1. -/
def tinyConfig : ConfigRegs := ⟨1000000#32, 80#32, 10#32, 20#32, 40#32, 10#32, 1#32, 1#32⟩

/-- The tiny timing of T2. -/
def tinyTiming : Timing := ⟨8#32, 1#32, 2#32, 4#32, 1#32⟩

/-- CLOSED, with P1's configuration written. -/
def closed : State := { State.reset with cfg := tinyConfig }

/-- READY, as after step 9 of P1. -/
def ready : State := { closed with timing := tinyTiming, fbAlloc := true, life := .ready }

/-- A RUN whose scanline (Video, 2, Odd) has just started, row 1 painted as in P1. -/
def inVideoLine : State :=
  { ready with
    scan := ⟨.video, 2#32, .odd⟩, life := .running, lineActive := true, runMode := true,
    fb := [(fbKey 1 0, 255#8), (fbKey 1 1, 128#8), (fbKey 1 3, 1#8)] }

/-- A RUN at the scanline boundary before (Video, 2, Odd). -/
def atBoundary : State := { inVideoLine with lineActive := false }

/-- HALTED by SinkError after five pairs (T13). -/
def haltedAt5 : State := { inVideoLine with sil := 5#32, life := .halted, lineActive := false, runMode := false, err := 7#8 }

/-- What a meaning or a step gives, if it is a next state. -/
def nextOf : Result → Option State
  | .next s => some s
  | .fault _ => none
  | .refused _ => none

/-- The last response of the next state: its status and payload. -/
def lastAnswer (r : Result) : Option (Byte × Payload) :=
  (nextOf r).bind fun s => s.responses.getLast?.map fun a => (a.status, a.payload)

/-- The STATUS register of the next state. -/
def statusAfter (r : Result) : Option Word := (nextOf r).map fun s => s.readReg .status

/-- The video samples of a scanline. -/
def videoOf (ps : Option (List Pair)) : Option (List Nat) := ps.map fun l => l.map fun p => p.video.toNat

/-! ## WellFormed: ill-formed terms are refused -/

theorem test_wellFormed_refuses_wrReg_of_spl : (Instr.wrReg 0x10#8 5#32).wellFormed = false := by decide
theorem test_wellFormed_refuses_wrReg_of_unassigned : (Instr.wrReg 0x08#8 0#32).wellFormed = false := by decide
theorem test_wellFormed_refuses_rdReg_of_unassigned : (Instr.rdReg 0x25#8).wellFormed = false := by decide
theorem test_wellFormed_takes_wrReg_of_hsync_lines : (Instr.wrReg 0x07#8 0#32).wellFormed = true := by decide
theorem test_wellFormed_takes_rdReg_of_err : (Instr.rdReg 0x28#8).wellFormed = true := by decide

/-! ## Decode: words written out field by field from R61 to R64, and T7 -/

theorem test_decode_init : decode (0x01#8 ++ 0x00000000000000#56) = .command .init := by decide
theorem test_decode_close : decode (0x02#8 ++ 0x00000000000000#56) = .command .close := by decide
theorem test_decode_pumpOnce : decode (0x10#8 ++ 0x00000000000000#56) = .command .pumpOnce := by decide
theorem test_decode_run : decode (0x11#8 ++ 0x00000000000000#56) = .command .run := by decide
theorem test_decode_stop : decode (0x12#8 ++ 0x00000000000000#56) = .command .stop := by decide
theorem test_decode_wrReg :
    decode (0x20#8 ++ 0x01#8 ++ 0x0000#16 ++ 0x0000027B#32) = .command (.wrReg 0x01#8 635#32) := by decide
theorem test_decode_rdReg : decode (0x21#8 ++ 0x28#8 ++ 0x0000#16 ++ 0x00000000#32) = .command (.rdReg 0x28#8) := by decide
theorem test_decode_setPixel :
    decode (0x30#8 ++ 0x80#8 ++ 0x0000#16 ++ 0x0000269F#32) = .command (.setPixel 0#16 9887#32 128#8) := by decide
theorem test_decode_getRow :
    decode (0x31#8 ++ 0x00#8 ++ 0x01E2#16 ++ 0x00000000#32) = .command (.getRow 482#16) := by decide
theorem test_decode_illegal_words :
    decode 0x0000000000000000#64 = .illegal .unassignedOpcode ∧
    decode 0xFFFFFFFFFFFFFFFF#64 = .illegal .unassignedOpcode ∧
    decode 0x1000000000000001#64 = .illegal .nonzeroMustBeZero ∧
    decode 0x3100000000000001#64 = .illegal .nonzeroMustBeZero := by decide
theorem test_encode_t7 :
    encode (.setPixel 1#16 0#32 255#8) = 0x30FF000100000000#64 ∧
    encode (.wrReg 0x07#8 65535#32) = 0x200700000000FFFF#64 := by decide
theorem test_decodeTableWord :
    decodeTableWord 64 0x2006000000000002 = some (.wrReg 0x06#8 2#32) ∧ decodeTableWord 64 0x0300000000000000 = none := by
  decide

/-! ## The timing calculator (T1, T2) -/

theorem test_count_tie_rounds_up : count 515 1000000 = 52 ∧ count 5 1000000 = 1 ∧ count 4 1000000 = 0 := by decide
theorem test_count_largest : count 65535 2147483647 = 14073534 := by decide
theorem test_computeTiming_tiny : tinyConfig.computeTiming = some tinyTiming := by decide
theorem test_computeTiming_sum_one_over :
    ({ ConfigRegs.reset with sampleRate := 384000#32 } : ConfigRegs).computeTiming =
      some ⟨24#32, 2#32, 2#32, 20#32, 1#32⟩ := by decide
theorem test_computeTiming_negative_rate :
    ({ ConfigRegs.reset with sampleRate := 0xFFFFFFFF#32 } : ConfigRegs).computeTiming = none := by decide
theorem test_computeTiming_sum_two_over : ({ tinyConfig with frontPorchUs10 := 30#32 } : ConfigRegs).computeTiming = none := by
  decide
theorem test_computeTiming_duration_too_large :
    ({ tinyConfig with scanlineUs10 := 65536#32 } : ConfigRegs).computeTiming = none := by decide

/-! ## Levels, segments, scanlines (T3, T4, T5, T6, T11) -/

theorem test_luma : (luma 2#8).toNat = 10009 ∧ (luma 127#8).toNat = 21253 ∧ (luma 200#8).toNat = 27819 := by decide
theorem test_segments_of_64 :
    let t : Timing := ⟨64#32, 5#32, 6#32, 52#32, 1#32⟩
    t.segmentAt 4 = .syncTip ∧ t.segmentAt 10 = .backPorch ∧ t.segmentAt 62 = .activeVideo ∧ t.segmentAt 63 = .frontPorch := by
  decide
theorem test_video_scanline : videoOf inVideoLine.produce = some [9830, 0, 0, 32767, 21343, 9830, 9919, 0] := by decide
theorem test_vsync_scanline : videoOf ready.produce = some [9830, 0, 0, 0, 0, 0, 0, 0] := by decide
theorem test_stream_bytes :
    (inVideoLine.produce.map fun ps => (State.streamBytes { inVideoLine with stream := ps.take 5 }).drop 12) =
      some [0x00#8, 0x00#8, 0xFF#8, 0x7F#8, 0x00#8, 0x00#8, 0x5F#8, 0x53#8] := by decide
theorem test_lineIndex_largest :
    State.lineIndex { inVideoLine with
      cfg := { tinyConfig with vsyncLines := 65535#32, hsyncLines := 65535#32 }, scan := ⟨.video, 131310#32, .odd⟩ } =
      some 481 := by decide
theorem test_advance_skips_hsync : Scan.advance 1 0 ⟨.vsync, 0#32, .odd⟩ = ⟨.video, 1#32, .odd⟩ := by decide
theorem test_advance_ends_a_pass : Scan.advance 2 1 ⟨.video, 243#32, .even⟩ = ⟨.vsync, 0#32, .odd⟩ := by decide
theorem test_chunks_of_127 : chunkLengths 127 8 = [15, 15, 15, 15, 15, 15, 15, 15, 7] := by decide

/-! ## Commands -/

/-- P3, step 1. -/
theorem test_init_at_reset : lastAnswer (step (State.reset.withFetchWord 64 0x0100000000000000)) = some (0x01#8, .empty) := by
  decide
/-- P1, step 9, and T9. -/
theorem test_init_succeeds :
    nextOf (exec .init closed) = some { ready with responses := [⟨some .init, 0x00#8, .empty⟩] } ∧
    statusAfter (exec .init closed) = some 0x00000009#32 := by decide
/-- T13. -/
theorem test_close_after_a_halt :
    (nextOf (exec .close haltedAt5)).map (fun s => (s.readReg .status, s.readReg .err, s.readReg .sil)) =
      some (0#32, 0#32, 0#32) := by decide
/-- R148. -/
theorem test_close_while_running : lastAnswer (exec .close inVideoLine) = some (0xFE#8, .empty) := by decide
/-- T9: inside a PUMPONCE, once its scanline has started. -/
theorem test_pumpOnce_in_flight :
    ((nextOf (exec .pumpOnce ready)).map fun s => (s.encoderStep .accept).readReg .status) = some 0x0000001A#32 := by decide
/-- T13. -/
theorem test_pumpOnce_halted : lastAnswer (exec .pumpOnce haltedAt5) = some (0x07#8, .empty) := by decide
/-- T9: inside a RUN, once its scanline has started. -/
theorem test_run_in_flight :
    ((nextOf (exec .run ready)).map fun s => (s.encoderStep .accept).readReg .status) = some 0x0000003A#32 := by decide
/-- R131. -/
theorem test_run_while_running : lastAnswer (exec .run inVideoLine) = some (0xFE#8, .empty) := by decide
/-- T9. -/
theorem test_stop_in_ready : statusAfter (exec .stop ready) = some 0x0000000D#32 := by decide
/-- T9. -/
theorem test_stop_in_halted : statusAfter (exec .stop haltedAt5) = some 0x0000000F#32 := by decide
/-- T7, P3 step 24. -/
theorem test_wrReg_of_spl : lastAnswer (exec (.wrReg 0x10#8 5#32) ready) = some (0xFF#8, .empty) := by decide
/-- T7, P3 step 22. -/
theorem test_wrReg_in_ready :
    nextOf (exec (.wrReg 0x00#8 5#32) ready) =
      some { ready with responses := [⟨some (.wrReg 0x00#8 5#32), 0xFE#8, .empty⟩] } := by decide
/-- T14. -/
theorem test_rdReg_of_field_at_reset : lastAnswer (exec (.rdReg 0x23#8) State.reset) = some (0x00#8, .word 1#32) := by decide
/-- T7. -/
theorem test_rdReg_of_unassigned : lastAnswer (exec (.rdReg 0x25#8) ready) = some (0xFF#8, .empty) := by decide
/-- T8: the last existing element, read back by the row it is in. -/
theorem test_setPixel_then_getRow :
    ((nextOf (exec (.setPixel 482#16 3#32 200#8) ready)).bind fun s => lastAnswer (exec (.getRow 482#16) s)) =
      some (0x00#8, .bytes [0#8, 0#8, 0#8, 200#8]) := by decide +kernel
/-- T8. -/
theorem test_setPixel_of_column_act : lastAnswer (exec (.setPixel 1#16 4#32 9#8) ready) = some (0x05#8, .empty) := by decide
/-- P1, step 18. -/
theorem test_getRow :
    lastAnswer (exec (.getRow 1#16) { inVideoLine with life := .ready, lineActive := false, runMode := false }) =
      some (0x00#8, .bytes [0xFF#8, 0x80#8, 0#8, 1#8]) := by
  decide +kernel
/-- R49, R199: after two reads, columns 0 and then 3 are written; the row holds the old one and the new one. -/
theorem test_getRow_while_running_is_torn :
    (nextOf (step { inVideoLine with inputs := [.getRowAmong 1#16 [⟨1, 1#16, 0#32, 9#8⟩, ⟨0, 1#16, 3#32, 9#8⟩]] })).map
      State.responses =
      some [⟨some (.getRow 1#16), 0x00#8, .bytes [0xFF#8, 0x80#8, 0#8, 9#8]⟩,
        ⟨some (.setPixel 1#16 0#32 9#8), 0x00#8, .empty⟩, ⟨some (.setPixel 1#16 3#32 9#8), 0x00#8, .empty⟩] := by
  decide +kernel
/-- R130: a SETPIXEL accepted after the GETROW comes after its first read, however early. -/
theorem test_getRow_reads_column_0_first :
    ((nextOf (step { inVideoLine with
      inputs := [.getRowAmong 1#16 [⟨0, 1#16, 0#32, 9#8⟩, ⟨0, 1#16, 1#32, 9#8⟩]] })).map State.responses).bind List.head? =
      some ⟨some (.getRow 1#16), 0x00#8, .bytes [0xFF#8, 9#8, 0#8, 1#8]⟩ := by
  decide +kernel
/-- R49: in READY the same commands read one moment of the row, the one before both writes. -/
theorem test_getRow_in_ready_is_of_one_moment :
    ((nextOf (step { inVideoLine with
      life := .ready, lineActive := false, runMode := false,
      inputs := [.getRowAmong 1#16 [⟨2, 1#16, 0#32, 9#8⟩, ⟨0, 1#16, 3#32, 9#8⟩]] })).map State.responses).bind List.head? =
      some ⟨some (.getRow 1#16), 0x00#8, .bytes [0xFF#8, 0x80#8, 0#8, 1#8]⟩ := by
  decide +kernel
/-- T8. -/
theorem test_getRow_of_row_483 : lastAnswer (exec (.getRow 483#16) ready) = some (0x05#8, .empty) := by decide

/-! ## The encoder and reset -/

/-- T13: the sixth pair fails. -/
theorem test_sink_fails_sixth_pair :
    State.encoderStep { inVideoLine with sil := 5#32 } .fail =
      { haltedAt5 with responses := [⟨some .run, 0x07#8, .empty⟩] } := by decide
/-- T5: the forced state with lineIndex 483. -/
theorem test_forced_row_483 :
    (State.encoderStep { atBoundary with scan := ⟨.video, 243#32, .odd⟩ } .accept).readReg .status = 0x0000000B#32 := by decide
/-- T12: a stop request at the first boundary. -/
theorem test_run_stops_at_boundary :
    State.encoderStep { atBoundary with stopReq := true } .accept =
      { atBoundary with
        stopReq := false, runMode := false, life := .ready, responses := [⟨some .run, 0x00#8, .empty⟩] } := by decide
/-- R190: reset in the middle of a scanline. -/
theorem test_reset_mid_line :
    nextOf (step { inVideoLine with sil := 5#32, inputs := [.reset] }) = some State.reset := by decide
/-- R68: an illegal word. -/
theorem test_step_illegal_word :
    nextOf (step { ready with inputs := [.command 0x1000000000000001#64] }) =
      some { ready with responses := [⟨none, 0xFF#8, .empty⟩] } := by decide

/-! ## Witnesses: states and operands that meet the hypotheses of the obligations -/

/-- The pixels of P1's row 1 lie inside the framebuffer. -/
theorem painted_store_inside (cell : Host.Cell) (h : cell ∈ inVideoLine.fb) :
    ∃ row col, row < 483 ∧ col < 4 ∧ cell.1 = fbKey row col := by
  simp only [inVideoLine, List.mem_cons, List.not_mem_nil, or_false] at h
  rcases h with rfl | rfl | rfl
  · exact ⟨1, 0, by decide, by decide, rfl⟩
  · exact ⟨1, 1, by decide, by decide, rfl⟩
  · exact ⟨1, 3, by decide, by decide, rfl⟩

/-- Any events may be to come: the invariant says nothing of them. -/
theorem closed_inv (es : List Input) : State.Inv { closed with inputs := es } := by
  constructor <;> simp [closed, Timing.zero, State.reset, State.StoreInside]

theorem ready_inv (es : List Input) (stop : Bool) : State.Inv { ready with inputs := es, stopReq := stop } := by
  constructor <;> simp [ready, closed, tinyTiming, tinyConfig, State.reset, Timing.valid, Timing.segmentSum, State.ScanInv,
    Scan.initial, modeOfLine, ConfigRegs.linesPerPass, ConfigRegs.v, ConfigRegs.h, ConfigRegs.linesLegal, State.StoreInside]

theorem inVideoLine_inv (es : List Input) : State.Inv { inVideoLine with inputs := es } := by
  constructor
  case store_inside => exact painted_store_inside
  case store_canonical => exact (by decide : inVideoLine.fb.wf = true)
  all_goals simp [inVideoLine, ready, closed, tinyTiming, tinyConfig, State.reset, Timing.valid, Timing.segmentSum,
    State.ScanInv, modeOfLine, ConfigRegs.linesPerPass, ConfigRegs.v, ConfigRegs.h, ConfigRegs.linesLegal]

theorem atBoundary_inv (es : List Input) : State.Inv { atBoundary with inputs := es } := by
  constructor
  case store_inside => exact painted_store_inside
  case store_canonical => exact (by decide : inVideoLine.fb.wf = true)
  all_goals simp [atBoundary, inVideoLine, ready, closed, tinyTiming, tinyConfig, State.reset, Timing.valid,
    Timing.segmentSum, State.ScanInv, modeOfLine, ConfigRegs.linesPerPass, ConfigRegs.v, ConfigRegs.h,
    ConfigRegs.linesLegal]

theorem haltedAt5_inv (es : List Input) : State.Inv { haltedAt5 with inputs := es } := by
  constructor
  case store_inside => exact painted_store_inside
  case store_canonical => exact (by decide : inVideoLine.fb.wf = true)
  all_goals simp [haltedAt5, inVideoLine, ready, closed, tinyTiming, tinyConfig, State.reset, Timing.valid,
    Timing.segmentSum, State.ScanInv, modeOfLine, ConfigRegs.linesPerPass, ConfigRegs.v, ConfigRegs.h,
    ConfigRegs.linesLegal, Status.code]

theorem witness_LegalWordIsItsCommandsEncoding :
    decode 0x2006000000000002#64 = .command (.wrReg 0x06#8 2#32) := by decide

theorem witness_DecoderAgreesWithOpcodeTable :
    decode 0x310001E200000000#64 = .command (.getRow 482#16) ∧
    ⟨"GETROW", 0x3100000000000000#64, 0xFFFF0000FFFFFFFF#64⟩ ∈ opcodeTable ∧
    OpcodeRow.selects ⟨"GETROW", 0x3100000000000000#64, 0xFFFF0000FFFFFFFF#64⟩ 0x310001E200000000#64 = true := by decide

theorem witness_StepRunsTheDecodedCommand :
    State.inputs { ready with inputs := [.command 0x1200000000000000#64] } = .command 0x1200000000000000#64 :: [] ∧
    decode 0x1200000000000000#64 = .command .stop ∧
    decode (BitVec.ofNat 64 0x1200000000000000) = .command .stop := by decide

theorem witness_StepTakesEveryOtherEvent :
    decode 0x0300000000000000#64 = .illegal .unassignedOpcode ∧
    State.inputs { ready with inputs := [.command 0x0300000000000000#64] } = .command 0x0300000000000000#64 :: [] ∧
    State.inputs { ready with inputs := [.encoder .fail] } = .encoder .fail :: [] ∧
    State.inputs { ready with inputs := [.getRowAmong 1#16 [⟨2, 1#16, 0#32, 9#8⟩]] } =
      .getRowAmong 1#16 [⟨2, 1#16, 0#32, 9#8⟩] :: [] ∧ ready.life ≠ .running ∧
    State.inputs { ready with inputs := [.setup .openFailed] } = .setup .openFailed :: [] ∧ ready.inputs = [] := by decide

theorem witness_ResetValues :
    State.reset = State.reset ∧ ∃ u : State, State.hardwareReset inVideoLine = u.hardwareReset := ⟨rfl, _, rfl⟩

theorem witness_HardwareResetFromAnyState :
    State.inputs { inVideoLine with inputs := [.reset] } = .reset :: [] := rfl

/-- All three clauses, at the last configuration register, the first register past them and a read-only one. -/
theorem witness_WrRegStoresOrIsRefused :
    (regOfNumber 0x07#8 = some .hsyncLines ∧ RegName.isConfig .hsyncLines = true ∧ closed.life = .closed) ∧
    regOfNumber 0x08#8 = none ∧ (regOfNumber 0x10#8 = some .spl ∧ RegName.isConfig .spl = false) ∧ ready.life ≠ .closed := by
  decide

theorem witness_RdRegReadsWithoutSideEffect :
    regOfNumber 0x28#8 = some .err ∧ regOfNumber 0x29#8 = none ∧
    (let s : State := { State.reset with
      cfg := { ConfigRegs.reset with sampleRate := 1000000#32 }, timing := ⟨64#32, 5#32, 6#32, 52#32, 1#32⟩ }
     s.cfg.computeTiming = some s.timing ∧
     s.cfg = { ConfigRegs.reset with
       sampleRate := 1000000#32, vsyncLines := s.cfg.vsyncLines, hsyncLines := s.cfg.hsyncLines }) := by decide

theorem witness_CountRoundsToNearestTiesUp : 46 ≤ 47 ∧ 357142 ≤ 357143 ∧ 14 * 357142 < 5000000 := by decide

theorem witness_CountsFitTheirRegisters : 65535 ≤ 65535 ∧ 2147483647 ≤ 2147483647 := by decide

/-- The store is exactly large enough. -/
theorem witness_InitOpensTheBlock :
    let s : State := { closed with params := ⟨483 * 4, 8⟩ }
    s.life = .closed ∧ 1 ≤ s.cfg.v ∧ s.cfg.v ≤ 65535 ∧ s.cfg.h ≤ 65535 ∧ s.cfg.computeTiming = some tinyTiming ∧
      483 * tinyTiming.act.toNat ≤ s.params.fbCapacityBytes ∧ s.sinkSetup = .ok := by decide

/-- Each clause at its boundary: V = 0, V = 65536, H = 65536, no timing; one byte too little; the sink's two failures. -/
theorem witness_InitReportsTheFirstFailingCheck :
    State.reset.cfg.v < 1 ∧
    65535 < ConfigRegs.v { tinyConfig with vsyncLines := 65536#32 } ∧
    65535 < ConfigRegs.h { tinyConfig with hsyncLines := 65536#32 } ∧
    ({ tinyConfig with frontPorchUs10 := 0#32 } : ConfigRegs).computeTiming = none ∧
    (closed.life = .closed ∧ 1 ≤ closed.cfg.v ∧ closed.cfg.v ≤ 65535 ∧ closed.cfg.h ≤ 65535 ∧
      closed.cfg.computeTiming = some tinyTiming) ∧
    1931 < 483 * tinyTiming.act.toNat ∧ 483 * tinyTiming.act.toNat ≤ 1932 ∧
    State.sinkSetup { closed with sinkSetup := .openFailed } = .openFailed ∧
    State.sinkSetup { closed with sinkSetup := .configFailed } = .configFailed := by decide

theorem witness_ResetConfigurationIsNotUsable :
    357142 < 357143 ∧
    (let c : ConfigRegs := { ConfigRegs.reset with sampleRate := 357142#32 }
     c = { ConfigRegs.reset with
       sampleRate := BitVec.ofNat 32 357142, vsyncLines := c.vsyncLines, hsyncLines := c.hsyncLines }) := by decide

theorem witness_InitCallBootsTheBlock :
    let s : State := { State.reset with inputs := asEvents (initCall tinyConfig) ++ [] }
    s.life = .closed ∧ tinyConfig.linesLegal = true ∧ tinyConfig.computeTiming = some tinyTiming ∧
      483 * tinyTiming.act.toNat ≤ s.params.fbCapacityBytes ∧ s.sinkSetup = .ok ∧
      s.inputs = asEvents (initCall tinyConfig) ++ [] := by decide

theorem witness_CloseTearsDown :
    haltedAt5.life ≠ .running ∧ inVideoLine.life = .running ∧ State.Inv { closed with inputs := [] } ∧ closed.life = .closed :=
  ⟨by decide, by decide, closed_inv [], by decide⟩

theorem witness_LifecycleTable :
    State.Inv { haltedAt5 with inputs := [] } ∧ (Instr.wrReg 0x07#8 0#32).WellFormed ∧ (Instr.run).WellFormed :=
  ⟨haltedAt5_inv [], by decide, by decide⟩

/-- LIFE before and after a step. -/
def lifeStep (s : State) : Option (Life × Life) := (nextOf (step s)).map fun t => (s.life, t.life)

/-- One transition of each kind that the conclusion tells apart. -/
theorem witness_LifeTransitions :
    lifeStep { closed with inputs := [.command (encode .init)] } = some (.closed, .ready) ∧
    lifeStep { ready with inputs := [.command (encode .pumpOnce)] } = some (.ready, .running) ∧
    lifeStep { ready with inputs := [.command (encode .run)] } = some (.ready, .running) ∧
    lifeStep { inVideoLine with sil := 8#32, runMode := false, inputs := [.encoder .stall] } = some (.running, .ready) ∧
    lifeStep { atBoundary with stopReq := true, inputs := [.encoder .accept] } = some (.running, .ready) ∧
    lifeStep { atBoundary with scan := ⟨.video, 243#32, .odd⟩, inputs := [.encoder .accept] } = some (.running, .halted) ∧
    lifeStep { inVideoLine with inputs := [.encoder .fail] } = some (.running, .halted) ∧
    lifeStep { ready with inputs := [.command (encode .close)] } = some (.ready, .closed) ∧
    lifeStep { haltedAt5 with inputs := [.command (encode .close)] } = some (.halted, .closed) ∧
    lifeStep { inVideoLine with inputs := [.reset] } = some (.running, .closed) := by decide

theorem witness_OneResponsePerCommand : State.Inv { ready with inputs := [], stopReq := false } := ready_inv [] false

/-- The last element, row 482 and column ACT - 1, RUNNING and HALTED; and a SETPIXEL to the element beside it. -/
theorem witness_SetPixelWritesOneElement :
    (State.Inv { inVideoLine with inputs := [] } ∧ inVideoLine.life ≠ .closed ∧ (482#16).toNat ≤ 482 ∧
      (3#32).toNat < inVideoLine.timing.act.toNat) ∧
    (State.Inv { haltedAt5 with inputs := [] } ∧ haltedAt5.life ≠ .closed) ∧
    ∀ w ∈ [(⟨1, 482#16, 2#32, 9#8⟩ : Intervening)], (w.row, w.col) ≠ (482#16, 3#32) :=
  ⟨⟨inVideoLine_inv [], by decide, by decide, by decide⟩, ⟨haltedAt5_inv [], by decide⟩, by decide⟩

theorem witness_GetRowReturnsTheRow :
    (ready.life ≠ .closed ∧ ready.fbAlloc = true ∧ (482#16).toNat ≤ 482) ∧
    (inVideoLine.life ≠ .closed ∧ inVideoLine.fbAlloc = true) ∧ (haltedAt5.life ≠ .closed ∧ haltedAt5.fbAlloc = true) := by
  decide

/-- Row 483; and row 1 with SETPIXELs after one and after three reads: the column before, the last between, the one after. -/
theorem witness_NextByteOfARowRead :
    let writes : List Intervening := [⟨0, 1#16, 0#32, 9#8⟩, ⟨2, 1#16, 3#32, 9#8⟩]
    State.inputs { inVideoLine with inputs := [.getRowAmong 483#16 writes] } = .getRowAmong 483#16 writes :: [] ∧
    inVideoLine.life = .running ∧ 482 < (483#16).toNat ∧ inVideoLine.fbAlloc = true ∧ (1#16).toNat ≤ 482 ∧
    (writes = [] ++ writes ∧ ∀ w later, writes = w :: later → 0 < 1 + w.reads) ∧
    (writes = writes.take 1 ++ writes.drop 1 ∧ 1 + ((writes.take 1).map Intervening.reads).sum ≤ 2 ∧
      ∀ w later, writes.drop 1 = w :: later → 2 < 1 + 0 + w.reads) ∧
    (writes = writes ++ [] ∧ 1 + (writes.map Intervening.reads).sum ≤ 3 ∧ 3 < inVideoLine.timing.act.toNat) := by
  refine ⟨rfl, by decide, by decide, by decide, by decide, ⟨rfl, ?_⟩, ⟨rfl, by decide, ?_⟩, rfl, by decide, by decide⟩ <;>
  · intro w later h
    obtain ⟨rfl, -⟩ := List.cons.inj h
    decide

/-- Row 1 of inVideoLine, j from 0 to ACT - 1; the last clause at c = 2, d = 3, j = 2. -/
theorem witness_GetRowWhileRunningMayMixMoments :
    ∀ j : Nat, j = 0 ∨ j = 2 ∨ j = 3 → ∃ (s : State) (row : BitVec 16) (c d : Word) (x y : Byte) (rest : List Input),
      s.Inv ∧ s.life = .running ∧ row.toNat ≤ 482 ∧ c.toNat < s.timing.act.toNat ∧
      d.toNat < s.timing.act.toNat ∧ j < s.timing.act.toNat ∧
      s.inputs = .getRowAmong row [⟨j, row, c, x⟩, ⟨0, row, d, y⟩] :: rest ∧
      (j = 2 → c.toNat ≤ j ∧ j < d.toNat ∧ s.fbRead row.toNat c.toNat = some 0#8 ∧ (0#8 : Byte) ≠ x ∧
        s.fbRead row.toNat d.toNat = some 1#8 ∧ (1#8 : Byte) ≠ y) := fun j _ =>
  ⟨{ inVideoLine with inputs := [.getRowAmong 1#16 [⟨j, 1#16, 2#32, 9#8⟩, ⟨0, 1#16, 3#32, 9#8⟩]] },
    1#16, 2#32, 3#32, 9#8, 9#8, [], inVideoLine_inv _, rfl, by decide, (by decide : 2 < 4), (by decide : 3 < 4),
    (by show j < 4; omega), rfl, fun hj => by subst hj; decide⟩

/-- Row 483; column ACT. -/
theorem witness_IndexErrorsAreLocal :
    ready.life ≠ .closed ∧ 482 < (483#16).toNat ∧ ready.timing.act.toNat ≤ (4#32).toNat := by decide

theorem witness_PumpOnceAndRunStartTheEncoder : ready.life = .ready ∧ haltedAt5.life = .halted := by decide

theorem witness_StopSetsTheRequest :
    ready.life ≠ .closed ∧ closed.life = .closed ∧
    ∃ t u : State, exec .stop ready = .next t ∧ exec .stop t = .next u := ⟨by decide, by decide, _, _, rfl, rfl⟩

theorem witness_LumaMapping : (254#8).toNat < (255#8).toNat ∧ (255#8).toNat = (254#8).toNat + 1 := by decide

theorem witness_SegmentsPartitionTheScanline :
    tinyTiming.valid = true ∧ 7 < tinyTiming.spl.toNat ∧
    (⟨12192#32, 901#32, 1133#32, 9888#32, 269#32⟩ : Timing).valid = true ∧
    (⟨24#32, 2#32, 2#32, 20#32, 1#32⟩ : Timing).valid = true := by decide

theorem witness_BlankScanlines :
    ready.timing.valid = true ∧ ready.scan.mode = .vsync ∧
    (Scan.mode { ready.scan with mode := .hsync, line := 1#32 }) = .hsync := by decide

/-- The largest row a run reads, and the largest there is (a forced state). -/
theorem witness_VideoScanlines :
    inVideoLine.timing.valid = true ∧ inVideoLine.fbAlloc = true ∧ inVideoLine.scan.mode = .video ∧
    State.lineIndex { inVideoLine with scan := ⟨.video, 242#32, .odd⟩ } = some 481 ∧
    State.lineIndex { inVideoLine with scan := ⟨.video, 243#32, .even⟩ } = some 482 := by decide

theorem witness_EveryScanlineHasSplPairs :
    State.Inv { inVideoLine with inputs := [] } ∧ inVideoLine.life ≠ .closed := ⟨inVideoLine_inv [], by decide⟩

theorem witness_EmittedLevels :
    ∃ s t : State, step s = .next t ∧ t.stream ≠ s.stream ∧
      ∀ p ∈ s.stream, p.audio = 0#16 ∧ (p.video = 0#16 ∨ 9830 ≤ p.video.toNat ∧ p.video.toNat ≤ 32767) :=
  ⟨{ inVideoLine with inputs := [.encoder .accept] }, _, rfl, by decide, by decide⟩

/-- 23 pairs: a remainder chunk. -/
theorem witness_ChunksOfAScanline :
    let s : State := { ready with timing := ⟨23#32, 2#32, 2#32, 18#32, 1#32⟩ }
    1 ≤ s.timing.spl.toNat ∧ 1 ≤ s.params.chunkDiv ∧
      (List.replicate 23 (⟨0#16, 0#16⟩ : Pair)).length = s.timing.spl.toNat := by decide

theorem witness_LineIndexFormula :
    inVideoLine.scan.line.toNat = inVideoLine.cfg.v + inVideoLine.cfg.h + 0 ∧
    (let s : State := { inVideoLine with cfg := { tinyConfig with vsyncLines := 2#32, hsyncLines := 3#32 } }
     s.cfg.v = 2 ∧ s.cfg.h = 3) := by decide

/-- Each clause: V = 2 and H = 2 at l = 0, 1, 2, 3, 4 and 244; the fourth also with H = 0. -/
theorem witness_AdvanceSteps :
    (0 + 1 < 2) ∧ (1 + 1 = 2 ∧ 1 ≤ 2) ∧ (2 ≤ 2 ∧ 2 + 1 < 2 + 2) ∧ (3 + 1 = 2 + 2) ∧ (0 + 1 = 1 + 0) ∧
    (2 + 2 ≤ 4 ∧ 4 + 1 < 2 + 2 + 241) ∧ (244 + 1 = 2 + 2 + 241) := by decide

theorem witness_ScanWalkIsPeriodic :
    1 ≤ inVideoLine.cfg.v ∧ inVideoLine.cfg.v ≤ 65535 ∧ inVideoLine.cfg.h ≤ 65535 ∧ inVideoLine.ScanInv ∧
    (1 ≤ 65535 ∧ 65535 ≤ 65535) ∧ 242 < 1 + 1 + 241 :=
  ⟨by decide, by decide, by decide, (inVideoLine_inv []).open_scan (by decide), by decide, by decide⟩

theorem witness_AFrameReadsEachRowOnce : 1 ≤ 65535 ∧ 65535 ≤ 65535 ∧ 0 ≤ 65535 := by decide

/-- Line start of a RUN; a sample step at the last sample; line end of a RUN and of a PUMPONCE; a stop. -/
theorem witness_EncoderSteps :
    (atBoundary.life = .running ∧ atBoundary.lineActive = false ∧ atBoundary.stopReq = false ∧
      atBoundary.rowOutOfBounds = false) ∧
    (let s : State := { inVideoLine with sil := 7#32 }
     s.lineActive = true ∧ s.sil.toNat < s.timing.spl.toNat ∧ s.pairAt s.sil.toNat = some ⟨0#16, 0#16⟩) ∧
    (let s : State := { inVideoLine with sil := 8#32 }
     s.lineActive = true ∧ s.sil = s.timing.spl ∧ s.runMode = true ∧ State.runMode { s with runMode := false } = false) ∧
    (let s : State := { atBoundary with stopReq := true }
     s.life = .running ∧ s.lineActive = false ∧ s.runMode = true ∧ s.stopReq = true) := by decide

/-- The forced state with lineIndex 483 (T5); the sink failing the first pair; a halted block. -/
theorem witness_RuntimeErrorsHalt :
    (let s : State := { atBoundary with scan := ⟨.video, 243#32, .odd⟩ }
     s.life = .running ∧ s.lineActive = false ∧ s.stopReq = false ∧ s.scan.mode = .video ∧ s.lineIndex = some 483 ∧
       482 < 483) ∧
    (inVideoLine.life = .running ∧ inVideoLine.lineActive = true ∧ inVideoLine.sil.toNat < inVideoLine.timing.spl.toNat ∧
      inVideoLine.pairAt inVideoLine.sil.toNat = some ⟨0#16, 9830#16⟩) ∧ haltedAt5.life = .halted := by decide

theorem witness_SampleStepsAgreeWithLineStep :
    ∃ (s : State) (rest : List Input), s.Inv ∧ s.life = .running ∧ s.lineActive = false ∧
      (s.runMode = true → s.stopReq = false) ∧ s.inputs = wholeLine s.timing.spl.toNat ++ rest :=
  ⟨{ atBoundary with inputs := wholeLine 8 ++ [] }, [], atBoundary_inv _, rfl, rfl, fun _ => rfl, rfl⟩

theorem witness_PumpOnceEmitsOneScanline :
    ∃ (s : State) (es rest : List Input), s.Inv ∧ s.life = .ready ∧ s.stopReq = true ∧
      es = .command (encode .pumpOnce) :: wholeLine s.timing.spl.toNat ∧ s.inputs = es ++ rest :=
  ⟨{ ready with inputs := .command (encode .pumpOnce) :: wholeLine 8 ++ [], stopReq := true }, _, [],
    ready_inv _ true, rfl, rfl, rfl, rfl⟩

/-- T12: two scanlines, then a STOP after three pairs of the third; and k at both ends of its range. -/
theorem witness_RunStopsAtTheScanlineBoundary :
    ∀ k : Nat, k = 0 ∨ k = 3 ∨ k = 8 → ∃ (s : State) (es rest : List Input), s.Inv ∧ s.life = .ready ∧ s.stopReq = false ∧ k ≤ s.timing.spl.toNat ∧
      es = .command (encode .run) :: (List.replicate 2 (wholeLine s.timing.spl.toNat)).flatten ++
        List.replicate (1 + k) (.encoder .accept) ++ .command (encode .stop) ::
        List.replicate (s.timing.spl.toNat - k + 2) (.encoder .accept) ∧
      s.inputs = es ++ rest := fun k _ =>
  ⟨{ ready with
      inputs := (.command (encode .run) :: (List.replicate 2 (wholeLine 8)).flatten ++
        List.replicate (1 + k) (.encoder .accept) ++ .command (encode .stop) ::
        List.replicate (8 - k + 2) (.encoder .accept)) ++ []
      stopReq := false },
    _, [], ready_inv _ false, rfl, rfl, (by show k ≤ 8; omega), rfl, rfl⟩

/-- Row 1, column ACT - 1, written after three pairs; the write may also come first or last. -/
theorem witness_RacingSetPixelShowsOldOrNew :
    ∀ j : Nat, j = 0 ∨ j = 3 ∨ j = 8 → ∃ (s : State) (row : BitVec 16) (col : Word) (value : Byte) (es rest : List Input),
      s.Inv ∧ s.life = .running ∧ s.lineActive = true ∧ s.sil = 0#32 ∧ s.scan.mode = .video ∧
      s.lineIndex = some row.toNat ∧ col.toNat < s.timing.act.toNat ∧ j ≤ s.timing.spl.toNat ∧
      es = List.replicate j (.encoder .accept) ++ .command (encode (.setPixel row col value)) ::
        List.replicate (s.timing.spl.toNat - j) (.encoder .accept) ∧
      s.inputs = es ++ rest := fun j _ =>
  ⟨{ inVideoLine with
      inputs := (List.replicate j (.encoder .accept) ++ .command (encode (.setPixel 1#16 3#32 9#8)) ::
        List.replicate (8 - j) (.encoder .accept)) ++ [] },
    1#16, 3#32, 9#8, _, [], inVideoLine_inv _, rfl, rfl, rfl, rfl, rfl, (by decide : 3 < 4), (by show j ≤ 8; omega), rfl, rfl⟩

/-- A write to another row, a stalled turn, a GETROW of the row with a write to another, and accepted pairs up to the last one. -/
theorem witness_HazardFreeScanlineCarriesItsRow :
    let es : List Input := [.encoder .accept, .command (encode (.setPixel 3#16 0#32 9#8)), .encoder .stall, .setup .openFailed,
      .getRowAmong 1#16 [⟨2, 3#16, 1#32, 9#8⟩]] ++ List.replicate 7 (.encoder .accept)
    State.Inv { inVideoLine with inputs := es ++ [] } ∧ inVideoLine.life = .running ∧ inVideoLine.lineActive = true ∧
      inVideoLine.sil = 0#32 ∧ inVideoLine.scan.mode = .video ∧ inVideoLine.lineIndex = some 1 ∧
      (∀ e ∈ es, e.keepsHazardRule 1 = true) ∧
      ∀ pre a post, es = pre ++ .encoder a :: post → acceptsIn pre < inVideoLine.timing.spl.toNat := by
  refine ⟨inVideoLine_inv _, by decide, by decide, by decide, by decide, by decide, by decide, ?_⟩
  intro pre a post h
  have hk : ∀ k < 12, acceptsIn (List.take k ([.encoder .accept, .command (encode (.setPixel 3#16 0#32 9#8)), .encoder .stall,
      .setup .openFailed, .getRowAmong 1#16 [⟨2, 3#16, 1#32, 9#8⟩]] ++ List.replicate 7 (.encoder .accept))) < 8 := by decide
  have hl := congrArg List.length h
  simp only [List.length_append, List.length_cons, List.length_replicate, List.length_nil] at hl
  have := hk pre.length (by omega)
  rwa [h, List.take_left'] at this
  rfl

/-- With 8 pairs the chunk length is 1, so any pair may fail. -/
theorem witness_ChunkedSinkHaltsAtAChunkStart :
    ∃ s t : State, s.Inv ∧ s.sinkFailsAtChunkStart ∧ s.life = .running ∧ step s = .next t ∧ t.life = .halted :=
  ⟨{ inVideoLine with inputs := [.encoder .fail] }, _, inVideoLine_inv _, fun _ _ => by decide, by decide, rfl, by decide⟩

theorem witness_PendingStopEndsTheNextRunAtOnce :
    ∃ (s : State) (a : SinkAnswer) (rest : List Input), s.Inv ∧ s.life = .ready ∧ s.stopReq = true ∧
      s.inputs = .command (encode .run) :: .encoder a :: rest :=
  ⟨{ ready with inputs := .command (encode .run) :: .encoder .stall :: [], stopReq := true }, _, _,
    ready_inv _ true, rfl, rfl, rfl⟩

/-- READY; HALTED; between two scanlines; inside a scanline that is not a Video one. -/
theorem witness_SafeWindowsReadNoRow :
    ready.safeWindow = true ∧ haltedAt5.safeWindow = true ∧ atBoundary.safeWindow = true ∧
      State.safeWindow { inVideoLine with scan := ⟨.hsync, 1#32, .odd⟩ } = true ∧ inVideoLine.safeWindow = false := by decide

theorem witness_WhoWritesConfigurationAndTiming :
    ∃ s t : State, step s = .next t ∧ t.cfg ≠ s.cfg :=
  ⟨{ State.reset with inputs := [.command (encode (.wrReg 0x06#8 2#32))] }, _, rfl, by decide⟩

theorem witness_WhoWritesTheFramebuffer : ∃ s t : State, step s = .next t ∧ t.fb ≠ s.fb :=
  ⟨{ ready with inputs := [.command (encode (.setPixel 1#16 0#32 255#8))] }, _, rfl, by decide⟩

theorem witness_StreamIsAppendOnly : ∃ s t : State, step s = .next t ∧ t.stream ≠ s.stream :=
  ⟨{ inVideoLine with inputs := [.encoder .accept] }, _, rfl, by decide⟩

theorem witness_ErrorTypesOfInitAndPump :
    closed.life = .closed ∧ ∃ s t : State, step s = .next t ∧ s.life ≠ .halted ∧ t.life = .halted :=
  ⟨rfl, { inVideoLine with inputs := [.encoder .fail] }, _, rfl, by decide, by decide⟩

theorem witness_ErrorLatchIsSticky : ∃ s t : State, s.Inv ∧ step s = .next t ∧ s.err ≠ 0#8 :=
  ⟨{ haltedAt5 with inputs := [.command (encode .run)] }, _, haltedAt5_inv _, rfl, by decide⟩

theorem witness_StreamIsWholeScanlines :
    ∃ s t : State, s.Inv ∧ (s.life ≠ .closed → ∃ n : Nat, s.stream.length = n * s.timing.spl.toNat + s.sil.toNat) ∧
      step s = .next t ∧ t.life ≠ .closed :=
  ⟨{ inVideoLine with inputs := [.encoder .accept] }, _, inVideoLine_inv _, fun _ => ⟨0, by decide⟩, rfl, by decide⟩

theorem witness_StepKeepsTheInvariant : ∃ s t : State, s.Inv ∧ step s = .next t :=
  ⟨{ inVideoLine with inputs := [.encoder .fail] }, _, inVideoLine_inv _, rfl⟩

theorem witness_ReachableStates :
    ∃ t : State,
      stepsFrom 1 { State.reset with
        params := ⟨0, 1⟩, sinkSetup := .openFailed, inputs := [.command (encode .stop)] } = .next t := ⟨_, rfl⟩

end Sys2Proof.Tests
end

section
/-! PROOFS. What the state holds: the STATUS view (spec/10_state.md R28), the values after hardware reset (R33), and the
invariant that every step keeps (R34). -/

namespace Sys2Proof.Machine

/-! ## STATUS -/

theorem State.statusWord_low (s : State) : s.statusWord.extractLsb' 0 2 = s.life.code :=
  BitVec.extractLsb'_append_eq_right

/-- LIFE and the four flags take the six bits below, so bit `6 + i` is one of the zeros. -/
theorem State.statusWord_high (s : State) : s.statusWord.extractLsb' 6 26 = 0#26 := by
  ext i hi
  simp only [State.statusWord, BitVec.getElem_extractLsb', BitVec.getLsbD_append]
  grind

/-- Settles O11: STATUS is its fields joined, so each bit range reads one of them. -/
theorem statusFields : Obligations.StatusFields := by
  refine ⟨fun s => ⟨?_, ?_, ?_, ?_, ?_, s.statusWord_high⟩, rfl⟩
  · refine s.statusWord_low.trans ?_
    cases s.life <;> rfl
  all_goals
    simp only [State.readReg, State.statusWord, BitVec.getLsbD_append]
    simp

/-! ## Reset -/

theorem State.readReg_hardwareReset (s : State) (r : RegName) : s.hardwareReset.readReg r = State.reset.readReg r := by
  cases r <;> rfl

/-- No element is read while the framebuffer is not allocated (R41). -/
theorem State.fbRead_of_unallocated {s : State} (h : s.fbAlloc = false) (row col : Nat) : s.fbRead row col = none := by
  simp [State.fbRead, State.elementExists, State.rowExists, h]

/-- No row is read while the framebuffer is not allocated (R41). -/
theorem State.rowBytes_of_unallocated {s : State} (h : s.fbAlloc = false) (row : Nat) : s.rowBytes row = none :=
  State.rowBytes_of_absent (by simp [State.rowExists, h])

/-- Settles O7: the reset state is the hardware reset of itself, a register reads after reset what it reads in
`State.reset`, and without a store nothing is read. -/
theorem resetValues : Obligations.ResetValues := by
  intro s hs
  obtain ⟨u, rfl⟩ : ∃ u : State, s = u.hardwareReset := hs.elim (fun h => ⟨.reset, h⟩) id
  have hfb := State.fbRead_of_unallocated u.hardwareReset_fbAlloc
  have hrow := State.rowBytes_of_unallocated u.hardwareReset_fbAlloc
  simp only [State.readReg_hardwareReset, State.hardwareReset_scan, State.hardwareReset_life, State.hardwareReset_stopReq,
    State.hardwareReset_fbAlloc, State.hardwareReset_lineActive, State.hardwareReset_runMode, hfb, hrow, implies_true, and_true]
  decide

/-! ## The invariant where it begins: reset, CLOSE, INIT -/

/-- The invariant speaks of the block alone: not of the parameters, the sink, the host or the events to come. -/
theorem State.Inv.outside {s : State} (h : s.Inv) (sinkSetup : SinkSetup) (params : Params) (stream : List Pair)
    (responses : List Response) (inputs : List Input) :
    State.Inv { s with sinkSetup, params, stream, responses, inputs } := { h with }

theorem State.Inv.respond {s : State} (h : s.Inv) (c : Option Instr) (st : Byte) (p : Payload) : (s.respond c st p).Inv :=
  h.outside ..

theorem State.Inv.answer {s : State} (h : s.Inv) (i : Instr) (e : Status) : (s.answer i e).Inv := h.respond ..

/-- The reset values meet the invariant under any configuration (R33, R194). -/
theorem State.reset_inv (cfg : ConfigRegs) : State.Inv { State.reset with cfg } := by
  constructor <;> simp [State.reset, Timing.zero, State.StoreInside]

theorem State.hardwareReset_inv (s : State) : s.hardwareReset.Inv := (State.reset_inv .reset).outside ..

theorem State.tornDown_inv (s : State) : s.tornDown.Inv := (State.reset_inv s.cfg).outside ..

/-- Line 0 of a field pass is a VSync line, for there is at least one (R12, R22). -/
theorem State.scanInv_of_initial {s : State} (hs : s.scan = .initial) (hv : 1 ≤ s.cfg.v) : s.ScanInv := by
  have hline : s.scan.line.toNat = 0 := by rw [hs]; rfl
  refine ⟨?_, ?_⟩
  · rw [hline, ConfigRegs.linesPerPass]; omega
  · rw [hline, modeOfLine, if_pos (by omega), hs]; rfl

/-- A successful INIT establishes the invariant: its checks are what the open block needs (R134, R137). -/
theorem State.opened_inv {s : State} {t : Timing} (h : s.initCheck = .pass t) : (s.opened t).Inv := by
  obtain ⟨hlines, htiming, -, -⟩ := State.initCheck_eq_pass h
  have hvalid := ConfigRegs.computeTiming_valid htiming
  have hspl : t.spl ≠ 0#32 := by
    obtain ⟨hpos, -⟩ := t.valid_iff.1 hvalid
    intro heq
    simp [heq] at hpos
  obtain ⟨hv, -, -⟩ := s.cfg.linesLegal_iff.1 hlines
  constructor
  case open_timing => exact fun _ => hvalid
  case open_scan => exact fun _ => State.scanInv_of_initial rfl hv
  case open_lines => exact fun _ => hlines
  all_goals simp [hspl, State.StoreInside]

/-! ## The other commands keep it -/

section Keeps

variable {s : State} (h : s.Inv)
include h

theorem State.Inv.fbAlloc_of_open (hl : s.life ≠ .closed) : s.fbAlloc = true := by
  simpa [h.closed_iff_no_store] using hl

theorem State.Inv.err_eq_zero (hl : s.life ≠ .halted) : s.err = 0#8 := by
  simpa [← h.err_iff_halted] using hl

/-- WRREG in CLOSED: the configuration is free there (R132). -/
theorem State.Inv.configured (hl : s.life = .closed) (cfg : ConfigRegs) : State.Inv { s with cfg } :=
  { h with
    open_scan := fun hn => absurd hl hn
    open_lines := fun hn => absurd hl hn }

/-- PUMPONCE and RUN start the encoder from READY (R141, R142). -/
theorem State.Inv.started (hl : s.life = .ready) (runMode : Bool) : State.Inv { s with life := .running, runMode } := by
  have hopen : s.life ≠ .closed := by simp [hl]
  constructor
  case closed_iff_no_store => simp [h.fbAlloc_of_open hopen]
  case closed_iff_no_timing => simpa [hl] using h.closed_iff_no_timing
  case open_timing => exact fun _ => h.open_timing hopen
  case open_scan => exact fun _ => h.open_scan hopen
  case open_lines => exact fun _ => h.open_lines hopen
  case between_lines => exact fun ha _ => h.between_lines ha (by simp [hl])
  case err_iff_halted => simpa [hl] using h.err_iff_halted
  case err_code => exact h.err_code
  case sil_le => exact h.sil_le
  case store_canonical => exact h.store_canonical
  case store_inside => exact h.store_inside
  all_goals simp

/-- STOP outside CLOSED (R144). -/
theorem State.Inv.stopRequested (hl : s.life ≠ .closed) (stopReq : Bool) : State.Inv { s with stopReq } :=
  { h with closed_at_reset_values := fun hc => absurd hc hl }

/-- A write to an element of the framebuffer keeps the store canonical and inside it (R41, R94). -/
theorem State.Inv.written (hl : s.life ≠ .closed) {row col : Nat} (hx : s.elementExists row col = true) (v : Byte) :
    State.Inv { s with fb := s.fb.write (fbKey row col) v } :=
  { h with
    closed_at_reset_values := fun hc => absurd hc hl
    store_canonical := Memory.write_keeps_wf h.store_canonical _ _
    store_inside := fun cell hcell => by
      obtain ⟨-, hrow, hcol⟩ := State.elementExists_iff.1 hx
      rcases Memory.mem_write hcell with heq | hmem
      · exact ⟨row, col, hrow, hcol, heq⟩
      · exact h.store_inside cell hmem }

theorem State.Inv.getRowAmong (row : BitVec 16) (writes : List Intervening) : (s.getRowAmong row writes).Inv :=
  State.getRowAmong_keeps row writes h (fun _ c st p ht => ht.respond c st p)
    fun _ w _ hl hx ht => ht.written hl hx w.value

theorem State.Inv.of_exec {i : Instr} {t : State} (ht : exec i s = .next t) : t.Inv := by
  obtain ⟨u, hu, hcases⟩ := exec_cases i s
  obtain rfl : u = t := Host.Outcome.next.inj (hu.symm.trans ht)
  rcases hcases with ⟨st, p, rfl, -⟩ | ⟨-, -, tm, hpass, rfl⟩ | ⟨-, -, rfl⟩ | ⟨-, hl, rfl⟩ | ⟨-, hl, rfl⟩ | ⟨-, hl, rfl⟩ |
    ⟨reg, data, cfg, -, hl, -, rfl⟩ | ⟨row, col, value, -, hl, hx, rfl⟩
  · exact h.respond _ st p
  · exact (State.opened_inv hpass).answer _ _
  · exact s.tornDown_inv.answer _ _
  · exact h.started hl false
  · exact h.started hl true
  · exact (h.stopRequested hl true).answer _ _
  · exact (h.configured hl cfg).answer _ _
  · exact (h.written hl hx value).answer _ _

end Keeps

/-! ## The encoder keeps it -/

/-- ADVANCE keeps the scan invariant (R118, R124): the next line has the mode of its place, and after the last line of a field
pass comes line 0. -/
theorem State.ScanInv.advance {s : State} (h : s.ScanInv) (hv : 1 ≤ s.cfg.v) (hvmax : s.cfg.v ≤ 65535)
    (hhmax : s.cfg.h ≤ 65535) : s.advance.ScanInv := by
  obtain ⟨hline, -⟩ := h
  simp only [ConfigRegs.linesPerPass, pictureLines] at hline
  have hnext : (BitVec.ofNat 32 (s.scan.line.toNat + 1)).toNat = s.scan.line.toNat + 1 := by
    rw [BitVec.toNat_ofNat]; omega
  simp only [State.ScanInv, State.advance, Scan.advance, ConfigRegs.linesPerPass, modeOfLine, pictureLines]
  split
  · next hvsync => simp [hnext, hvsync]; omega
  · split
    · next hvsync hhsync => simp [hnext, hvsync, hhsync]; omega
    · split
      · next hvsync hhsync hvideo => simp [hnext, hvsync, hhsync, hvideo]
      · simp; omega

section Encoder

variable {s : State} (h : s.Inv) (hl : s.life = .running)
include h hl

/-- A RUNNING block is open, and its latch is clear. -/
theorem State.Inv.running_facts :
    s.fbAlloc = true ∧ s.timing.spl ≠ 0#32 ∧ s.timing.valid = true ∧ s.ScanInv ∧ s.cfg.linesLegal = true ∧ s.err = 0#8 := by
  have hopen : s.life ≠ .closed := by simp [hl]
  exact ⟨h.fbAlloc_of_open hopen, fun hz => hopen (h.closed_iff_no_timing.2 hz), h.open_timing hopen, h.open_scan hopen,
    h.open_lines hopen, h.err_eq_zero (by simp [hl])⟩

/-- A runtime error: HALTED with its code latched, and SIL left as it is (R176). -/
theorem State.Inv.halted {e : Status} (he : e = .consistencyError ∨ e = .sinkError) : (s.halt e).Inv := by
  obtain ⟨halloc, hspl, hvalid, hscan, hlines, -⟩ := h.running_facts hl
  have hcode : e.code ≠ 0#8 := by rcases he with rfl | rfl <;> decide
  constructor
  case open_timing => exact fun _ => hvalid
  case open_scan => exact fun _ => hscan
  case open_lines => exact fun _ => hlines
  case err_code => exact fun _ => he.imp (congrArg Status.code) (congrArg Status.code)
  case sil_le => exact h.sil_le
  case store_canonical => exact h.store_canonical
  case store_inside => exact h.store_inside
  all_goals simp [halloc, hspl, hcode]

/-- While RUNNING the encoder may move within the line, to the next line, or back to READY: the scan state must stay in its
walk, SIL within the line, and SIL 0 between lines. -/
theorem State.Inv.encoderMoved {scan : Scan} {sil : Word} {life : Life} {stopReq lineActive runMode : Bool}
    (hscan : State.ScanInv { s with scan }) (hsil : sil.toNat ≤ s.timing.spl.toNat)
    (hbetween : lineActive = false → sil = 0#32)
    (hlife : life = .running ∨ life = .ready ∧ lineActive = false ∧ runMode = false) :
    State.Inv { s with scan, sil, life, stopReq, lineActive, runMode } := by
  obtain ⟨halloc, hspl, hvalid, -, hlines, herr⟩ := h.running_facts hl
  have hopen : life ≠ .closed ∧ life ≠ .halted := by rcases hlife with rfl | ⟨rfl, -⟩ <;> decide
  constructor
  case open_timing => exact fun _ => hvalid
  case open_scan => exact fun _ => hscan
  case open_lines => exact fun _ => hlines
  case idle_unless_running => exact fun hn => (hlife.resolve_left hn).2
  case between_lines => exact fun ha _ => hbetween ha
  case sil_le => exact hsil
  case store_canonical => exact h.store_canonical
  case store_inside => exact h.store_inside
  all_goals simp [halloc, hspl, herr, hopen]

/-- The line end, of a RUN and of a PUMPONCE (R128, R141, R142). -/
theorem State.Inv.lineEnd : s.lineEnd.Inv := by
  obtain ⟨-, -, -, hscan, hlines, -⟩ := h.running_facts hl
  obtain ⟨hv, hvmax, hhmax⟩ := s.cfg.linesLegal_iff.1 hlines
  have hnext := hscan.advance hv hvmax hhmax
  rcases s.lineEnd_eq with ⟨-, heq⟩ | ⟨hpump, heq⟩
  · rw [heq]
    exact h.encoderMoved hl hnext (Nat.zero_le _) (fun _ => rfl) (.inl hl)
  · rw [heq]
    exact (h.encoderMoved hl hnext (Nat.zero_le _) (fun _ => rfl) (.inr ⟨rfl, rfl, hpump⟩)).answer _ _

/-- An accepted pair counts in SIL, which was short of the line (R126). -/
theorem State.Inv.pairAccepted (ha : s.lineActive = true) (hs : s.sil.toNat < s.timing.spl.toNat) (p : Pair) :
    State.Inv { s with stream := s.stream ++ [p], sil := s.sil + 1#32 } := by
  obtain ⟨-, -, -, hscan, -, -⟩ := h.running_facts hl
  have hsil : (s.sil + 1#32).toNat ≤ s.timing.spl.toNat := by bv_omega
  exact (h.encoderMoved hl hscan hsil (fun hn => by simp [ha] at hn) (.inl hl)).outside ..

omit hl in
theorem State.Inv.encoderStep (a : SinkAnswer) : (s.encoderStep a).Inv := by
  rcases s.encoderStep_cases a with ⟨-, heq⟩ | ⟨hl, ha, hs, ⟨-, heq⟩ | ⟨p, -, ⟨-, heq⟩ | ⟨-, heq⟩ | ⟨-, heq⟩⟩⟩ |
    ⟨hl, -, -, heq⟩ | ⟨hl, ha, -, -, heq⟩ | ⟨hl, -, -, ⟨-, heq⟩ | ⟨-, heq⟩⟩ <;> rw [heq]
  · exact h
  · exact h.halted hl (.inl rfl)
  · exact h.pairAccepted hl ha hs p
  · exact h.halted hl (.inr rfl)
  · exact h
  · exact h.lineEnd hl
  · obtain ⟨-, -, -, hscan, -, -⟩ := h.running_facts hl
    have hsil := h.between_lines ha (by simp [hl])
    exact (h.encoderMoved hl hscan h.sil_le (fun _ => hsil) (.inr ⟨rfl, ha, rfl⟩)).answer _ _
  · exact h.halted hl (.inl rfl)
  · obtain ⟨-, -, -, hscan, -, -⟩ := h.running_facts hl
    exact h.encoderMoved hl hscan (Nat.zero_le _) (fun _ => rfl) (.inl hl)

end Encoder

/-! ## Every step and every run keeps it -/

theorem State.Inv.of_step {s t : State} (h : s.Inv) (ht : step s = .next t) : t.Inv := by
  rcases step_cases ht with ⟨-, rfl⟩ | ⟨e, rest, -, hcases⟩
  · exact h
  have hrest : State.Inv { s with inputs := rest } := h.outside ..
  rcases hcases with ⟨w, i, -, -, hexec⟩ | ⟨w, why, -, -, rfl⟩ | ⟨a, -, rfl⟩ | ⟨row, writes, -, rfl⟩ | ⟨v, -, rfl⟩ | ⟨-, rfl⟩
  · exact hrest.of_exec hexec
  · exact hrest.respond ..
  · exact hrest.encoderStep a
  · exact hrest.getRowAmong row writes
  · exact hrest.outside ..
  · exact State.hardwareReset_inv _

/-- What every step keeps, every run keeps. -/
theorem stepsFrom_keeps {P : State → Prop} (hstep : ∀ s t : State, P s → step s = .next t → P t) {k : Nat} {s t : State}
    (h : P s) (ht : stepsFrom k s = .next t) : P t := by
  induction k generalizing s with
  | zero => exact Host.Outcome.next.inj ht ▸ h
  | succ k ih =>
    cases hs : step s with
    | next u =>
      rw [stepsFrom_succ k hs] at ht
      exact ih (hstep s u h hs) ht
    | fault f => cases f
    | refused r => simp [stepsFrom, hs] at ht

/-- MODE never reads 3 (R34). -/
theorem State.readReg_mode_ne_three (s : State) : s.readReg .mode ≠ 3#32 := by
  simp only [State.readReg]
  cases s.scan.mode <;> decide

/-- What the invariant says of a READY block (R34(c)). -/
theorem State.Inv.ready_facts {s : State} (h : s.Inv) (hl : s.life = .ready) :
    s.sil = 0#32 ∧ s.lineActive = false ∧ s.runMode = false ∧ s.err = 0#8 := by
  obtain ⟨hline, hmode⟩ := h.idle_unless_running (by simp [hl])
  exact ⟨h.between_lines hline (by simp [hl]), hline, hmode, h.err_eq_zero (by simp [hl])⟩

/-- Settles O58: the reset values meet the invariant, every run keeps it, and the clauses of R34 follow from it. -/
theorem reachableStates : Obligations.ReachableStates := by
  intro params setup events k t ht
  have hreset := (State.reset_inv .reset).outside setup params [] [] events
  have h : t.Inv := stepsFrom_keeps (fun _ _ => State.Inv.of_step) hreset ht
  exact ⟨⟨h.closed_iff_no_store, h.closed_iff_no_store.symm.trans h.closed_iff_no_timing⟩,
    fun hopen => ⟨h.open_timing hopen, h.open_scan hopen, t.cfg.linesLegal_iff.1 (h.open_lines hopen)⟩,
    h.ready_facts, h.err_iff_halted, h.sil_le, t.readReg_mode_ne_three⟩

end Sys2Proof.Machine
end

section
/-! PROOFS. The words of the commands (spec/30_encoding.md R67, R68), the output stream (spec/20_memory.md R43) and a SETPIXEL
that races the scanline reading its row (R54). -/

namespace Sys2Proof.Machine

/-! ## A word and its command -/

theorem decode_encode (i : Instr) : decode (encode i) = .command i := by
  cases i with
  | init => decide
  | close => decide
  | pumpOnce => decide
  | run => decide
  | stop => decide
  | wrReg reg data =>
    obtain ⟨hop, hhigh, hmid, hlow⟩ := fields_of_join 0x20#8 reg 0#16 data
    simp [decode, encode, requireZero, hop, hhigh, hmid, hlow]
  | rdReg reg =>
    obtain ⟨hop, hhigh, hmid, hlow⟩ := fields_of_join 0x21#8 reg 0#16 0#32
    simp [decode, encode, requireZero, hop, hhigh, hmid, hlow]
  | setPixel row col value =>
    obtain ⟨hop, hhigh, hmid, hlow⟩ := fields_of_join 0x30#8 value row col
    simp [decode, encode, hop, hhigh, hmid, hlow]
  | getRow row =>
    obtain ⟨hop, hhigh, hmid, hlow⟩ := fields_of_join 0x31#8 0#8 row 0#32
    simp only [decode, encode, requireZero, hop, hhigh, hmid, hlow]
    simp

theorem requireZero_eq_command {zero : Bool} {i j : Instr} : requireZero zero i = .command j ↔ zero = true ∧ i = j := by
  cases zero <;> simp [requireZero]

theorem word_eq_of_fields {w : CommandWord} {op high : Byte} {mid : BitVec 16} {low : Word} (hop : opField w = op)
    (hhigh : highField w = high) (hmid : midField w = mid) (hlow : lowField w = low) : w = op ++ high ++ mid ++ low := by
  rw [← join_of_fields w, hop, hhigh, hmid, hlow]

/-- A legal word is the encoding of its command: the branch taken fixes the opcode and the must-be-zero fields, and the operands
are the other fields (R60 to R64). -/
theorem encode_of_decode {w : CommandWord} {i : Instr} (h : decode w = .command i) : encode i = w := by
  simp only [decode] at h
  split_ifs at h
  all_goals
    rename_i hop
    simp only [requireZero_eq_command, Decoded.command.injEq, beq_iff_eq, Bool.and_eq_true, bodyField_eq_zero] at h
  iterate 5 -- the commands of format N
    · obtain ⟨⟨hhigh, hmid, hlow⟩, rfl⟩ := h
      exact (word_eq_of_fields hop hhigh hmid hlow).symm
  · obtain ⟨hmid, rfl⟩ := h
    exact (word_eq_of_fields hop rfl hmid rfl).symm
  · obtain ⟨⟨hmid, hlow⟩, rfl⟩ := h
    exact (word_eq_of_fields hop rfl hmid hlow).symm
  · obtain rfl := h
    exact (word_eq_of_fields hop rfl rfl rfl).symm
  · obtain ⟨⟨hhigh, hlow⟩, rfl⟩ := h
    exact (word_eq_of_fields hop hhigh rfl hlow).symm

/-! ## The stream is append-only -/

theorem State.lineEnd_stream (s : State) : s.lineEnd.stream = s.stream := by
  rcases s.lineEnd_eq with ⟨-, heq⟩ | ⟨-, heq⟩ <;> rw [heq]
  rfl

/-- A command leaves the stream, but for a successful INIT, which starts it anew (R43, R137). -/
theorem exec_stream {i : Instr} {s t : State} (h : exec i s = .next t) :
    t.stream = s.stream ∨ (i = .init ∧ s.life = .closed ∧ t.life = .ready ∧ t.stream = []) := by
  obtain ⟨u, hu, hcases⟩ := exec_cases i s
  obtain rfl : u = t := Host.Outcome.next.inj (hu.symm.trans h)
  rcases hcases with ⟨st, p, rfl, -⟩ | ⟨hi, hl, tm, -, rfl⟩ | ⟨-, -, rfl⟩ | ⟨-, -, rfl⟩ | ⟨-, -, rfl⟩ | ⟨-, -, rfl⟩ |
    ⟨reg, data, cfg, -, -, -, rfl⟩ | ⟨row, col, value, -, -, -, rfl⟩
  case inr.inl => exact .inr ⟨hi, hl, rfl, rfl⟩
  all_goals exact .inl rfl

/-- A turn of the encoder leaves the stream, or appends the pair it offers, which the sink accepts (R126). -/
theorem State.encoderStep_stream (s : State) (a : SinkAnswer) :
    (s.encoderStep a).stream = s.stream ∨
    ∃ p, (s.encoderStep a).stream = s.stream ++ [p] ∧ a = .accept ∧ s.life = .running ∧ s.lineActive = true ∧
      s.pairAt s.sil.toNat = some p := by
  rcases s.encoderStep_cases a with ⟨-, heq⟩ | ⟨hl, ha, -, ⟨-, heq⟩ | ⟨p, hp, ⟨hacc, heq⟩ | ⟨-, heq⟩ | ⟨-, heq⟩⟩⟩ |
    ⟨-, -, -, heq⟩ | ⟨-, -, -, -, heq⟩ | ⟨-, -, -, ⟨-, heq⟩ | ⟨-, heq⟩⟩ <;> rw [heq]
  case inr.inl.inr.inl => exact .inr ⟨p, rfl, hacc, hl, ha, hp⟩
  case inr.inr.inl => exact .inl s.lineEnd_stream
  all_goals exact .inl rfl

/-- Settles O52: of the events only an accepted pair and a successful INIT touch the stream. -/
theorem streamIsAppendOnly : Obligations.StreamIsAppendOnly := by
  intro s t ht
  rcases step_cases ht with ⟨-, rfl⟩ | ⟨e, rest, hin, hcases⟩
  · exact .inl rfl
  rcases hcases with ⟨w, i, rfl, hd, hexec⟩ | ⟨w, why, -, -, rfl⟩ | ⟨a, rfl, rfl⟩ | ⟨row, writes, -, rfl⟩ | ⟨v, -, rfl⟩ |
    ⟨-, rfl⟩
  · rcases exec_stream hexec with heq | ⟨rfl, hl, hready, hnil⟩
    · exact .inl heq
    · exact .inr (.inr ⟨hnil, hl, hready, rest, by rw [encode_of_decode hd, hin]⟩)
  · exact .inl rfl
  · rcases State.encoderStep_stream { s with inputs := rest } a with heq | ⟨p, heq, rfl, hl, ha, hp⟩
    · exact .inl heq
    · exact .inr (.inl ⟨p, rest, heq, hin, hl, ha, hp⟩)
  · exact .inl (State.getRowAmong_stream _ row writes)
  · exact .inl rfl
  · exact .inl rfl

/-! ## A scanline and a write to its row -/

/-- Past the bounds check there is a scanline (R110, R117). -/
theorem State.produce_of_in_bounds {s : State} (ha : s.fbAlloc = true) (hb : s.rowOutOfBounds = false) :
    ∃ ps, s.produce = some ps := by
  choose pair hpair using State.pairAt_of_in_bounds ha hb
  exact ⟨_, by rw [State.produce, if_neg (by simp [hb]), funext hpair, allSome_map_some]⟩

/-- A RUNNING block always has its scanline (R117). -/
theorem State.Inv.produce_of_running {s : State} (h : s.Inv) (hl : s.life = .running) : ∃ ps, s.produce = some ps := by
  obtain ⟨halloc, -, -, hscan, -⟩ := h.running_facts hl
  exact State.produce_of_in_bounds halloc hscan.row_in_bounds

/-- A scanline is given by its samples (R110). -/
theorem State.produce_of_pairs {s : State} {ps : List Pair} (hb : s.rowOutOfBounds = false)
    (hlen : ps.length = s.timing.spl.toNat) (h : ∀ i < s.timing.spl.toNat, s.pairAt i = ps[i]?) :
    s.produce = some ps := by
  rw [State.produce, if_neg (by simp [hb]), allSome_eq_some]
  apply List.ext_getElem (by simp [hlen])
  intro i hi _
  simp only [List.length_map, List.length_range] at hi
  simp [h i hi, hlen, hi]

theorem State.rowOutOfBounds_of_produce {s : State} {ps : List Pair} (h : s.produce = some ps) :
    s.rowOutOfBounds = false := by
  cases hb : s.rowOutOfBounds
  · rfl
  · simp [State.produce, hb] at h

/-- The sink accepts the pair on offer (R126). -/
theorem State.encoderStep_accept {s : State} {p : Pair} (hl : s.life = .running) (ha : s.lineActive = true)
    (hs : s.sil.toNat < s.timing.spl.toNat) (hp : s.pairAt s.sil.toNat = some p) :
    s.encoderStep .accept = { s with sil := s.sil + 1#32, stream := s.stream ++ [p] } := by
  simp [State.encoderStep, State.sampleStep, hl, ha, hs, hp]

/-- The step of an accepted pair. -/
theorem step_accept {s : State} {p : Pair} {rest : List Input} (hl : s.life = .running) (ha : s.lineActive = true)
    (hs : s.sil.toNat < s.timing.spl.toNat) (hp : s.pairAt s.sil.toNat = some p)
    (hin : s.inputs = .encoder .accept :: rest) :
    step s = .next { s with sil := s.sil + 1#32, stream := s.stream ++ [p], inputs := rest } :=
  (step_cons hin).trans
    (congrArg Host.Outcome.next (State.encoderStep_accept (s := { s with inputs := rest }) hl ha hs hp))

/-- `k` turns in which the sink accepts emit the next `k` pairs of the scanline in flight, and change SIL and the stream
alone (R126, R129). -/
theorem stepsFrom_accepts {s : State} {ps : List Pair} {rest : List Input} (k : Nat) (hl : s.life = .running)
    (ha : s.lineActive = true) (hp : s.produce = some ps) (hk : s.sil.toNat + k ≤ s.timing.spl.toNat)
    (hin : s.inputs = List.replicate k (.encoder .accept) ++ rest) :
    stepsFrom k s = .next { s with
      sil := s.sil + BitVec.ofNat 32 k, stream := s.stream ++ (ps.drop s.sil.toNat).take k, inputs := rest } := by
  induction k generalizing s with
  | zero =>
    have hrest : s.inputs = rest := hin
    simp [stepsFrom, ← hrest]
  | succ k ih =>
    obtain ⟨hlen, hpairs⟩ := State.produce_eq_some hp
    have hs : s.sil.toNat < ps.length := by omega
    have hpair : s.pairAt s.sil.toNat = some ps[s.sil.toNat] := by rw [hpairs _ (by omega), List.getElem?_eq_getElem hs]
    have hsil : (s.sil + 1#32).toNat = s.sil.toNat + 1 := by bv_omega
    have hcount : s.sil + 1#32 + BitVec.ofNat 32 k = s.sil + BitVec.ofNat 32 (k + 1) := by
      rw [BitVec.add_assoc, ← BitVec.ofNat_add, Nat.add_comm 1 k]
    rw [stepsFrom_succ k (step_accept hl ha (by omega) hpair hin)]
    refine (ih ?_ ?_ ?_ ?_ rfl).trans ?_
    · exact hl
    · exact ha
    · exact hp
    · show (s.sil + 1#32).toNat + k ≤ s.timing.spl.toNat
      omega
    · simp only [hsil, hcount, List.append_assoc, List.singleton_append]
      rw [List.drop_eq_getElem_cons hs, List.take_succ_cons]

/-- The turns that accept the rest of the scanline in flight. -/
theorem stepsFrom_accepts_rest {s : State} {ps : List Pair} {rest : List Input} (k : Nat) (hl : s.life = .running)
    (ha : s.lineActive = true) (hp : s.produce = some ps) (hk : s.sil.toNat + k = s.timing.spl.toNat)
    (hin : s.inputs = List.replicate k (.encoder .accept) ++ rest) :
    stepsFrom k s = .next { s with
      sil := s.timing.spl, stream := s.stream ++ ps.drop s.sil.toNat, inputs := rest } := by
  obtain ⟨hlen, -⟩ := State.produce_eq_some hp
  have hend : s.sil + BitVec.ofNat 32 k = s.timing.spl := by
    have hwidth := s.timing.spl.isLt
    rw [← BitVec.toNat_inj, BitVec.toNat_add, BitVec.toNat_ofNat]
    omega
  rw [stepsFrom_accepts k hl ha hp (by omega) hin, hend, List.take_of_length_le (by rw [List.length_drop]; omega)]

/-! ## A write and what is read -/

section Write

variable {s : State} {row col : Nat} (v : Byte)

theorem State.fbRead_write_same (hw : s.fb.wf = true) (hx : s.elementExists row col = true) :
    State.fbRead { s with fb := s.fb.write (fbKey row col) v } row col = some v := by
  obtain ⟨halloc, hrow, hcol⟩ := State.elementExists_iff.1 hx
  exact State.fbRead_eq_some.2 ⟨halloc, hrow, hcol, Memory.read_write_same hw _ v⟩

theorem State.fbRead_write_other (hx : s.elementExists row col = true) {r c : Nat} (hne : r = row → c ≠ col) :
    State.fbRead { s with fb := s.fb.write (fbKey row col) v } r c = s.fbRead r c := by
  obtain ⟨halloc, hrow, hcol⟩ := State.elementExists_iff.1 hx
  by_cases hother : r < 483 ∧ c < s.timing.act.toNat
  · have hkey : fbKey r c ≠ fbKey row col := by
      rw [Ne, fbKey_inj (by omega) (by omega)]
      exact fun heq => hne heq.1 heq.2
    rw [State.fbRead_of_exists halloc hother.1 hother.2, ← Memory.read_write_other s.fb hkey v]
    exact State.fbRead_of_exists halloc hother.1 hother.2
  · have habsent : ¬ s.elementExists r c = true := fun he => hother (State.elementExists_iff.1 he).2
    rw [State.fbRead, State.fbRead, if_neg habsent]
    exact if_neg habsent

/-- The sample that reads the written element shows the new value (R54). -/
theorem State.pairAt_write_same (hw : s.fb.wf = true) (hx : s.elementExists row col = true) {i : Nat}
    (hi : s.elementRead i = some (some row, col)) :
    State.pairAt { s with fb := s.fb.write (fbKey row col) v } i = some ⟨0#16, luma v⟩ := by
  have hi' : State.elementRead { s with fb := s.fb.write (fbKey row col) v } i = some (some row, col) := hi
  simp [State.pairAt, State.videoSample, hi', State.fbRead_write_same v hw hx]

/-- Every other sample shows what it showed (R54: "no other sample is affected"). -/
theorem State.pairAt_write_other (hx : s.elementExists row col = true) {i : Nat}
    (hi : s.elementRead i ≠ some (some row, col)) :
    State.pairAt { s with fb := s.fb.write (fbKey row col) v } i = s.pairAt i := by
  have hread : State.elementRead { s with fb := s.fb.write (fbKey row col) v } i = s.elementRead i := rfl
  simp only [State.pairAt, State.videoSample, hread]
  cases he : s.elementRead i with
  | none => rfl
  | some element =>
    obtain ⟨_ | r, c⟩ := element
    · rfl
    · have hne : r = row → c ≠ col := fun hr hc => hi (by rw [he, hr, hc])
      simp only [State.fbRead_write_other v hx hne]

/-- Of the scanline of row `row`, sample TIP + BP + `col` alone reads element (`row`, `col`) (R105, R107). -/
theorem State.elementRead_column_iff (hm : s.scan.mode = .video) (hr : s.lineIndex = some row) (hc : col < s.timing.act.toNat)
    (i : Nat) : s.elementRead i = some (some row, col) ↔ i = s.timing.tip.toNat + s.timing.bp.toNat + col := by
  constructor
  · intro h
    simp only [State.elementRead] at h
    split at h
    · next hseg =>
      have hactive := Timing.segmentAt_active hseg
      simp only [Option.some.injEq, Prod.mk.injEq] at h
      omega
    · simp at h
  · rintro rfl
    have hseg : s.timing.segmentAt (s.timing.tip.toNat + s.timing.bp.toNat + col) = .activeVideo := by
      rw [Timing.segmentAt, if_neg (by omega), if_neg (by omega), if_pos (by omega)]
    simp [State.elementRead, hm, hseg, hr]
    omega

/-- A write to the row of the present scanline changes the pair of the written column alone (R54). -/
theorem State.produce_write {old : List Pair} (hold : s.produce = some old) (hw : s.fb.wf = true)
    (hx : s.elementExists row col = true) (hm : s.scan.mode = .video) (hr : s.lineIndex = some row) :
    State.produce { s with fb := s.fb.write (fbKey row col) v } =
      some (old.set (s.timing.tip.toNat + s.timing.bp.toNat + col) ⟨0#16, luma v⟩) := by
  obtain ⟨-, -, hcol⟩ := State.elementExists_iff.1 hx
  obtain ⟨hlen, hpairs⟩ := State.produce_eq_some hold
  have hread := State.elementRead_column_iff hm hr hcol
  have hbounds : s.rowOutOfBounds = false := State.rowOutOfBounds_of_produce hold
  refine State.produce_of_pairs hbounds (by simpa using hlen) fun i hi => ?_
  change i < s.timing.spl.toNat at hi
  by_cases hcolumn : i = s.timing.tip.toNat + s.timing.bp.toNat + col
  · rw [State.pairAt_write_same v hw hx ((hread i).2 hcolumn), ← hcolumn, List.getElem?_set_self (by omega)]
  · rw [State.pairAt_write_other v hx (fun he => hcolumn ((hread i).1 he)), hpairs i hi,
      List.getElem?_set_ne (Ne.symm hcolumn)]

end Write

/-- A SETPIXEL of an element that exists, outside CLOSED (R139). -/
theorem State.setPixel_of_exists {s : State} (hl : s.life ≠ .closed) {row : BitVec 16} {col : Word}
    (hx : s.elementExists row.toNat col.toNat = true) (value : Byte) :
    s.setPixel row col value =
      ({ s with fb := s.fb.write (fbKey row.toNat col.toNat) value }).answer (.setPixel row col value) .ok := by
  unfold State.setPixel
  rw [State.fbWrite, if_pos hx]
  split
  · next hclosed => exact absurd hclosed hl
  all_goals rfl

/-- The step that serves a SETPIXEL of an element that exists: the write and its response. -/
theorem step_setPixel {s : State} {row : BitVec 16} {col : Word} {value : Byte} {rest : List Input} (hl : s.life ≠ .closed)
    (hx : s.elementExists row.toNat col.toNat = true)
    (hin : s.inputs = .command (encode (.setPixel row col value)) :: rest) :
    step s = .next { s with
      fb := s.fb.write (fbKey row.toNat col.toNat) value, inputs := rest,
      responses := s.responses ++ [⟨some (.setPixel row col value), 0x00#8, .empty⟩] } := by
  rw [step_cons hin, takeEvent, serve, decode_encode]
  exact congrArg Host.Outcome.next (State.setPixel_of_exists (s := { s with inputs := rest }) hl hx value)

/-- Settles O45: `j` accepted pairs of the old picture, the write, and the remaining pairs of the new picture. -/
theorem racingSetPixelShowsOldOrNew : Obligations.RacingSetPixelShowsOldOrNew := by
  intro s row col value j es rest h hl ha hsil hm hr hcol hj hes hin
  obtain ⟨halloc, -, -, hscan, -⟩ := h.running_facts hl
  obtain ⟨old, hold⟩ := h.produce_of_running hl
  have hrow : row.toNat < 483 := by
    have hbounds := hscan.row_in_bounds
    simpa [State.rowOutOfBounds, hm, hr] using hbounds
  have hx : s.elementExists row.toNat col.toNat = true := State.elementExists_iff.2 ⟨halloc, hrow, hcol⟩
  have hnew := State.produce_write value hold h.store_canonical hx hm hr
  generalize hset : old.set (s.timing.tip.toNat + s.timing.bp.toNat + col.toNat) ⟨0#16, luma value⟩ = new at hnew
  refine ⟨old, new, hold, hset.symm, ?_⟩
  have hturns : es.length = j + (s.timing.spl.toNat - j + 1) := by simp [hes]
  have hsilj : (s.sil + BitVec.ofNat 32 j).toNat = j := by
    have hwidth := s.timing.spl.isLt
    rw [hsil, BitVec.zero_add, BitVec.toNat_ofNat, Nat.mod_eq_of_lt (by omega)]
  rw [hes, List.append_assoc, List.cons_append] at hin
  rw [hturns, stepsFrom_add j _ (stepsFrom_accepts j hl ha hold (by simpa [hsil] using hj) hin)]
  refine (stepsFrom_succ _ (step_setPixel ?_ ?_ rfl)).trans ?_
  · simp [hl]
  · exact hx
  refine (stepsFrom_accepts_rest (ps := new) _ ?_ ?_ ?_ ?_ rfl).trans ?_
  · exact hl
  · exact ha
  · exact hnew
  · simp only [hsilj]
    omega
  · simp only [hsilj]
    simp [hsil]

end Sys2Proof.Machine
end

section
/-! PROOFS. The output stream as bytes: the four bytes of a pair (spec/30_encoding.md R72). -/

namespace Sys2Proof.Machine

/-! ## The bytes of a pair -/

theorem high_append_low_byte (x : Sample) : x.extractLsb' 8 8 ++ x.extractLsb' 0 8 = x :=
  (BitVec.extractLsb'_append_extractLsb'_eq_extractLsb' rfl).trans BitVec.extractLsb'_eq_self

theorem sampleBytes_zero : sampleBytes 0#16 = [0x00#8, 0x00#8] := by decide

theorem Pair.bytes_of_silence (v : Sample) : Pair.bytes ⟨0#16, v⟩ = 0x00#8 :: 0x00#8 :: sampleBytes v :=
  congrArg (· ++ sampleBytes v) sampleBytes_zero

/-- Settles O34: each sample is its high byte joined to its low byte, and silence puts 00 00 before the video bytes. -/
theorem pairBytes : Obligations.PairBytes := by
  refine ⟨fun p => ⟨_, _, _, _, rfl, high_append_low_byte p.audio, high_append_low_byte p.video⟩, fun v => ?_, ?_, ?_, ?_⟩
  · rw [Pair.bytes_of_silence]
    rfl
  all_goals
    rw [Pair.bytes_of_silence]
    decide

end Sys2Proof.Machine
end

section
/-! PROOFS. The timing calculator (spec/40_timing_calculator.md): COUNT rounds to the nearest integer and fits its register
(R82, R86, R89), and what COMPUTETIMING's success says (R80). -/

namespace Sys2Proof.Machine

/-! ## COUNT -/

theorem count_bounds (d f : Nat) :
    10000000 * count d f ≤ d * f + 5000000 ∧ d * f + 5000000 < 10000000 * (count d f + 1) :=
  ⟨Nat.mul_div_le _ _, Nat.lt_mul_div_succ _ (by decide)⟩

theorem count_mono {d e f g : Nat} (hd : d ≤ e) (hf : f ≤ g) : count d f ≤ count e g :=
  Nat.div_le_div_right (Nat.add_le_add_right (Nat.mul_le_mul hd hf) _)

/-- Below half a sample a duration counts none (R86). -/
theorem count_eq_zero_of_lt {d f : Nat} (h : d * f < 5000000) : count d f = 0 :=
  Nat.div_eq_of_lt (by omega)

/-- Settles O12: a quotient lies between its multiples of the divisor, and product, sum and quotient are non-decreasing. -/
theorem countRoundsToNearestTiesUp : Obligations.CountRoundsToNearestTiesUp :=
  ⟨fun _ _ => rfl, count_bounds, fun _ _ _ h => count_mono h le_rfl, fun _ _ _ h => count_mono le_rfl h,
    fun _ => count_eq_zero_of_lt (by omega), fun _ _ => count_eq_zero_of_lt, by decide⟩

/-! ## COUNT fits its register -/

/-- The largest legal duration at the largest rate gives the largest COUNT (R89). -/
theorem count_le {d f : Nat} (hd : d ≤ maxDuration) (hf : f ≤ 2147483647) : count d f ≤ 14073534 :=
  (count_mono hd hf).trans (by decide)

/-- Settles O13: the dividend and COUNT are largest at the largest operands, and the sums follow from the bound on one COUNT. -/
theorem countsFitTheirRegisters : Obligations.CountsFitTheirRegisters := by
  intro d f hd hf
  have hprod : d * f ≤ 65535 * 2147483647 := Nat.mul_le_mul hd hf
  have hcount := count_le hd hf
  refine ⟨by omega, by decide, hcount, by decide, fun a b c ha hb hc => ?_, by omega⟩
  have hcountA := count_le ha hf
  have hcountB := count_le hb hf
  have hcountC := count_le hc hf
  omega

/-! ## COMPUTETIMING -/

/-- What COMPUTETIMING checks and what it gives: the branches of R80 that end in the return. -/
theorem ConfigRegs.computeTiming_eq_some_iff (c : ConfigRegs) (t : Timing) :
    c.computeTiming = some t ↔
      0 < c.sampleRate.toInt ∧ (∀ d ∈ c.durations, d ≤ maxDuration) ∧ t = c.countsAt c.sampleRate.toInt.toNat ∧
        t.valid = true := by
  simp only [ConfigRegs.computeTiming, Option.ite_none_left_eq_some, Option.ite_none_right_eq_some, Option.some.injEq,
    List.any_eq_true, decide_eq_true_eq, not_le, not_exists, not_and, not_lt]
  exact ⟨fun ⟨hrate, hall, hvalid, heq⟩ => ⟨hrate, hall, heq.symm, heq ▸ hvalid⟩,
    fun ⟨hrate, hall, heq, hvalid⟩ => ⟨hrate, hall, heq ▸ hvalid, heq.symm⟩⟩

/-- The signed rate is below 2^31 (R66). -/
theorem ConfigRegs.sampleRate_toInt_le (c : ConfigRegs) : c.sampleRate.toInt ≤ 2147483647 := by
  have := BitVec.toInt_lt (x := c.sampleRate)
  omega

/-- The segments sum to SPL within one, said as a distance (R85). -/
theorem Timing.valid_iff_natAbs (t : Timing) :
    t.valid = true ↔ t.spl.toNat ≠ 0 ∧ t.tip.toNat ≠ 0 ∧ t.bp.toNat ≠ 0 ∧ t.act.toNat ≠ 0 ∧ t.fp.toNat ≠ 0 ∧
      ((t.tip.toNat + t.bp.toNat + t.act.toNat + t.fp.toNat : Int) - t.spl.toNat).natAbs ≤ 1 := by
  rw [t.valid_iff, Timing.segmentSum]
  omega

/-- A register holds a legal COUNT as a number (R89). -/
theorem eq_ofNat_count_iff {d f : Nat} (hd : d ≤ maxDuration) (hf : f ≤ 2147483647) (x : Word) :
    x = BitVec.ofNat 32 (count d f) ↔ x.toNat = count d f := by
  have hcount := count_le hd hf
  rw [BitVec.toNat_eq, BitVec.toNat_ofNat, Nat.mod_eq_of_lt (by omega)]

theorem ConfigRegs.durations_le_iff (c : ConfigRegs) (n : Nat) :
    (∀ d ∈ c.durations, d ≤ n) ↔ c.scanlineUs10.toNat ≤ n ∧ c.syncTipUs10.toNat ≤ n ∧ c.backPorchUs10.toNat ≤ n ∧
      c.activeUs10.toNat ≤ n ∧ c.frontPorchUs10.toNat ≤ n := by
  simp [ConfigRegs.durations]

/-- The record of the counts is the five COUNTs as numbers: none is cut off (R89). -/
theorem ConfigRegs.eq_countsAt_iff {c : ConfigRegs} {f : Nat} (hdur : ∀ d ∈ c.durations, d ≤ maxDuration)
    (hf : f ≤ 2147483647) (t : Timing) :
    t = c.countsAt f ↔ t.spl.toNat = count c.scanlineUs10.toNat f ∧ t.tip.toNat = count c.syncTipUs10.toNat f ∧
      t.bp.toNat = count c.backPorchUs10.toNat f ∧ t.act.toNat = count c.activeUs10.toNat f ∧
      t.fp.toNat = count c.frontPorchUs10.toNat f := by
  obtain ⟨hscan, htip, hbp, hact, hfp⟩ := (c.durations_le_iff _).1 hdur
  rw [← eq_ofNat_count_iff hscan hf, ← eq_ofNat_count_iff htip hf, ← eq_ofNat_count_iff hbp hf,
    ← eq_ofNat_count_iff hact hf, ← eq_ofNat_count_iff hfp hf]
  cases t
  simp [ConfigRegs.countsAt]

/-- Settles O14: the rate `f` is the signed register as a number, the counts fit their registers, and validity is R84 and
R85. -/
theorem computeTimingRule : Obligations.ComputeTimingRule := by
  refine ⟨fun c t => ?_, by decide⟩
  have hf := c.sampleRate_toInt_le
  rw [c.computeTiming_eq_some_iff]
  constructor
  · rintro ⟨hrate, hdur, ht, hvalid⟩
    obtain ⟨hscan, htip, hbp, hact, hfp⟩ := (c.durations_le_iff _).1 hdur
    obtain ⟨hspl, htipc, hbpc, hactc, hfpc⟩ := (ConfigRegs.eq_countsAt_iff hdur (by omega) t).1 ht
    exact ⟨_, (Int.toNat_of_nonneg hrate.le).symm, by omega, hscan, htip, hbp, hact, hfp, hspl, htipc, hbpc, hactc, hfpc,
      t.valid_iff_natAbs.1 hvalid⟩
  · rintro ⟨f, hrate, hpos, hscan, htip, hbp, hact, hfp, hspl, htipc, hbpc, hactc, hfpc, hvalid⟩
    have hdur := (c.durations_le_iff maxDuration).2 ⟨hscan, htip, hbp, hact, hfp⟩
    rw [hrate] at hf ⊢
    exact ⟨by omega, hdur, (ConfigRegs.eq_countsAt_iff hdur (by omega) t).2 ⟨hspl, htipc, hbpc, hactc, hfpc⟩,
      t.valid_iff_natAbs.2 hvalid⟩

end Sys2Proof.Machine
end

section
/-! PROOFS. The composite sample generator (spec/42_sample_generator.md): the luma mapping (R102, R104), the segments of a
scanline (R105, R106) and the levels of an emitted pair (R101, R71). -/

namespace Sys2Proof.Machine

/-! ## The luma mapping -/

/-- The largest dividend gives white, so the sum fits into 16 bits (R104). -/
theorem luma_toNat (p : Byte) : (luma p).toNat = 9830 + 22937 * p.toNat / 255 := by
  have hwidth := p.isLt
  rw [luma, BitVec.toNat_ofNat, Nat.mod_eq_of_lt (by omega)]

theorem luma_bounds (p : Byte) : 9830 ≤ (luma p).toNat ∧ (luma p).toNat ≤ 32767 := by
  have hwidth := p.isLt
  rw [luma_toNat]
  omega

/-- A step of the byte adds 22937 / 255, between 89 and 90, before the division truncates (R104). -/
theorem luma_succ {p q : Byte} (h : q.toNat = p.toNat + 1) :
    (luma q).toNat = (luma p).toNat + 89 ∨ (luma q).toNat = (luma p).toNat + 90 := by
  rw [luma_toNat, luma_toNat, h]
  omega

theorem luma_strictMono {p q : Byte} (h : p.toNat < q.toNat) : (luma p).toNat < (luma q).toNat := by
  rw [luma_toNat, luma_toNat]
  omega

/-- Settles O28: the formula holds as numbers, and its properties are those of the quotient. -/
theorem lumaMapping : Obligations.LumaMapping := by
  refine ⟨luma_toNat, by decide, by decide, by decide, by decide, by decide, by decide, fun _ _ => luma_strictMono,
    fun _ _ => luma_succ, fun p => ?_⟩
  obtain ⟨hlow, hhigh⟩ := luma_bounds p
  exact ⟨hlow, hhigh, BitVec.msb_eq_false_iff_two_mul_lt.2 (by omega)⟩

/-! ## The segments of a scanline -/

/-- The sample indices of a segment (R105). -/
def Timing.samplesOf (t : Timing) : Segment → Finset Nat
  | .syncTip => Finset.Ico 0 t.tip.toNat
  | .backPorch => Finset.Ico t.tip.toNat (t.tip.toNat + t.bp.toNat)
  | .activeVideo => Finset.Ico (t.tip.toNat + t.bp.toNat) (t.tip.toNat + t.bp.toNat + t.act.toNat)
  | .frontPorch => Finset.Ico (t.tip.toNat + t.bp.toNat + t.act.toNat) t.spl.toNat

theorem Timing.segmentAt_of_mem {t : Timing} {g : Segment} {i : Nat} (h : i ∈ t.samplesOf g) : t.segmentAt i = g := by
  cases g <;> obtain ⟨hfirst, hlast⟩ := Finset.mem_Ico.1 h <;> rw [Timing.segmentAt]
  case syncTip => rw [if_pos hlast]
  case backPorch => rw [if_neg (by omega), if_pos hlast]
  case activeVideo => rw [if_neg (by omega), if_neg (by omega), if_pos hlast]
  case frontPorch => rw [if_neg (by omega), if_neg (by omega), if_neg (by omega)]

theorem Timing.mem_samplesOf_segmentAt (t : Timing) {i : Nat} (hi : i < t.spl.toNat) : i ∈ t.samplesOf (t.segmentAt i) := by
  rw [Timing.segmentAt]
  split_ifs with htip hbp hact
  · exact Finset.mem_Ico.2 ⟨i.zero_le, htip⟩
  · exact Finset.mem_Ico.2 ⟨not_lt.1 htip, hbp⟩
  · exact Finset.mem_Ico.2 ⟨not_lt.1 hbp, hact⟩
  · exact Finset.mem_Ico.2 ⟨not_lt.1 hact, hi⟩

/-- SEG is the segment whose range holds the sample (R105). -/
theorem Timing.segmentAt_eq_iff (t : Timing) {i : Nat} (hi : i < t.spl.toNat) (g : Segment) :
    t.segmentAt i = g ↔ i ∈ t.samplesOf g :=
  ⟨fun hseg => hseg ▸ t.mem_samplesOf_segmentAt hi, Timing.segmentAt_of_mem⟩

/-- The first three segments fit into the scanline, and the fourth ends with it (R18, R106). -/
theorem Timing.lt_spl_of_mem_samplesOf {t : Timing} (h : t.valid = true) {g : Segment} {i : Nat} (hi : i ∈ t.samplesOf g) :
    i < t.spl.toNat := by
  have hends := Timing.active_ends_within h
  cases g <;> obtain ⟨-, hlast⟩ := Finset.mem_Ico.1 hi <;> omega

/-- The length of a segment is the size of its range (R106). -/
theorem Timing.countP_segmentAt {t : Timing} (h : t.valid = true) (g : Segment) :
    ((List.range t.spl.toNat).countP fun i => t.segmentAt i == g) = (t.samplesOf g).card := by
  have hsamples : (Finset.range t.spl.toNat).filter (t.segmentAt · = g) = t.samplesOf g := by
    ext i
    rw [Finset.mem_filter, Finset.mem_range]
    exact ⟨fun ⟨hi, hseg⟩ => (t.segmentAt_eq_iff hi g).1 hseg,
      fun hmem => ⟨Timing.lt_spl_of_mem_samplesOf h hmem, Timing.segmentAt_of_mem hmem⟩⟩
  rw [← hsamples, ← Nat.count_eq_card_filter_range]
  rfl

/-- The front porch absorbs the rounding: its length is FP within one (R85, R106). -/
theorem Timing.frontPorch_near_fp {t : Timing} (h : t.valid = true) :
    (t.samplesOf .frontPorch).card ≤ t.fp.toNat + 1 ∧ t.fp.toNat ≤ (t.samplesOf .frontPorch).card + 1 := by
  obtain ⟨-, -, -, -, -, hover, hunder⟩ := t.valid_iff.1 h
  simp only [Timing.segmentSum] at hover hunder
  simp only [Timing.samplesOf, Nat.card_Ico]
  omega

/-- Settles O29: a sample lies in the segment whose range holds it, and a segment is as long as its range. -/
theorem segmentsPartitionTheScanline : Obligations.SegmentsPartitionTheScanline := by
  intro t h
  refine ⟨fun i hi => ?_, ?_, fun _ _ => rfl⟩
  · simp [t.segmentAt_eq_iff hi, Timing.samplesOf, hi]
  · simp only [Timing.countP_segmentAt h]
    obtain ⟨hmost, hleast⟩ := Timing.frontPorch_near_fp h
    refine ⟨?tip, ?bp, ?act, ?fp, hmost, hleast, ?usual, ?empty⟩
    case usual =>
      rintro rfl
      simp [Timing.samplesOf]
    case empty =>
      rintro rfl
      exact ⟨by simp [Timing.samplesOf], by decide⟩
    all_goals simp [Timing.samplesOf, Nat.sub_add_eq]

/-! ## The levels of an emitted pair -/

/-- A sample that reads an element is its luma, every other one is the sync tip's or blanking (R107). -/
theorem State.videoSample_level {s : State} {i : Nat} {v : Sample} (h : s.videoSample i = some v) :
    v = 0#16 ∨ 9830 ≤ v.toNat ∧ v.toNat ≤ 32767 := by
  unfold State.videoSample at h
  split at h
  · obtain rfl := Option.some.inj h
    cases s.timing.segmentAt i with
    | syncTip => exact .inr (by decide)
    | backPorch | activeVideo | frontPorch => exact .inl rfl
  · simp at h
  · obtain ⟨b, -, rfl⟩ := Option.map_eq_some_iff.1 h
    exact .inr (luma_bounds b)

theorem State.pairAt_level {s : State} {i : Nat} {p : Pair} (h : s.pairAt i = some p) :
    p.audio = 0#16 ∧ (p.video = 0#16 ∨ 9830 ≤ p.video.toNat ∧ p.video.toNat ≤ 32767) := by
  obtain ⟨v, hv, rfl⟩ := Option.map_eq_some_iff.1 h
  exact ⟨rfl, State.videoSample_level hv⟩

/-- Settles O33: a step adds to the stream at most the pair of the present sample (O52). -/
theorem emittedLevels : Obligations.EmittedLevels := by
  intro s t hstep hold
  rcases streamIsAppendOnly s t hstep with heq | ⟨p, -, heq, -, -, -, hp⟩ | ⟨hnil, -⟩
  · rwa [heq]
  · rw [heq, List.forall_mem_append]
    exact ⟨hold, by simpa using State.pairAt_level hp⟩
  · simp [hnil]

end Sys2Proof.Machine
end

section
/-! PROOFS. The scanline encoder (spec/43_scanline_encoder.md): the walk of ADVANCE through a field pass (R118 to R124), the
rows a frame reads (R116), and the pairs of a scanline in each mode (R112 to R114). -/

namespace Sys2Proof.Machine

/-! ## ADVANCE through a field pass -/

/-- The scan state on line `l` of a pass of field `f`, in the mode of its place (R22). -/
def Scan.onLine (v h l : Nat) (f : FieldParity) : Scan := ⟨modeOfLine v h l, BitVec.ofNat 32 l, f⟩

theorem modeOfLine_vsync {v h n : Nat} (hn : n < v) : modeOfLine v h n = .vsync := if_pos hn

theorem modeOfLine_hsync {v h n : Nat} (hv : v ≤ n) (hn : n < v + h) : modeOfLine v h n = .hsync := by
  rw [modeOfLine, if_neg hv.not_gt, if_pos hn]

theorem modeOfLine_video {v h n : Nat} (hn : v + h ≤ n) : modeOfLine v h n = .video := by
  rw [modeOfLine, if_neg (by omega), if_neg hn.not_gt]

theorem Scan.initial_eq_onLine {v : Nat} (h : Nat) (hv : 1 ≤ v) : Scan.initial = Scan.onLine v h 0 .odd := by
  rw [Scan.onLine, modeOfLine_vsync hv]
  rfl

/-- The modes of a pass in order (R124). -/
theorem map_modeOfLine_range (v h : Nat) :
    (List.range (v + h + 241)).map (modeOfLine v h) =
      List.replicate v .vsync ++ List.replicate h .hsync ++ List.replicate 241 .video := by
  rw [List.range_add, List.range_add, List.map_append, List.map_append, List.map_map, List.map_map]
  congr 1
  · congr 1
    · rw [List.map_congr_left fun n hn => modeOfLine_vsync (List.mem_range.1 hn), List.map_const', List.length_range]
    · have hhsync : ∀ k ∈ List.range h, (modeOfLine v h ∘ (v + ·)) k = .hsync := fun k hk =>
        modeOfLine_hsync (v.le_add_right k) (Nat.add_lt_add_left (List.mem_range.1 hk) v)
      rw [List.map_congr_left hhsync, List.map_const', List.length_range]
  · have hvideo : ∀ k ∈ List.range 241, (modeOfLine v h ∘ (v + h + ·)) k = .video := fun k _ =>
      modeOfLine_video ((v + h).le_add_right k)
    rw [List.map_congr_left hvideo, List.map_const', List.length_range]

section Walk

variable {v h : Nat} (hvmax : v ≤ 65535) (hhmax : h ≤ 65535)
include hvmax hhmax

/-- Before the last line of a pass ADVANCE goes to the next line, whatever the mode was (R119 to R121). -/
theorem Scan.advance_within {l : Nat} (hl : l + 1 < v + h + 241) (m : ScanMode) (f : FieldParity) :
    Scan.advance v h ⟨m, BitVec.ofNat 32 l, f⟩ = Scan.onLine v h (l + 1) f := by
  have hline : (BitVec.ofNat 32 l).toNat = l := by rw [BitVec.toNat_ofNat, Nat.mod_eq_of_lt (by omega)]
  simp only [Scan.advance, hline, Scan.onLine, modeOfLine]
  split_ifs <;> rfl

/-- After the last line ADVANCE goes to line 0 of the other field (R122). -/
theorem Scan.advance_last {l : Nat} (hl : l + 1 = v + h + 241) (m : ScanMode) (f : FieldParity) :
    Scan.advance v h ⟨m, BitVec.ofNat 32 l, f⟩ = ⟨.vsync, 0#32, f.toggle⟩ := by
  have hline : (BitVec.ofNat 32 l).toNat + 1 = v + h + 241 := by rw [BitVec.toNat_ofNat, Nat.mod_eq_of_lt (by omega), hl]
  simp only [Scan.advance, hline, pictureLines]
  rw [if_neg (by omega), if_neg (by omega), if_neg (by omega)]

/-- `k` line steps into a pass the scan is on line `k`. -/
theorem Scan.advanceBy_within (f : FieldParity) {k : Nat} (hk : k < v + h + 241) :
    (Scan.onLine v h 0 f).advanceBy v h k = Scan.onLine v h k f := by
  induction k with
  | zero => rfl
  | succ k ih => rw [Scan.advanceBy, ih (by omega), Scan.onLine, Scan.advance_within hvmax hhmax hk]

end Walk

theorem Scan.advanceBy_eq_iterate (v h k : Nat) (x : Scan) : x.advanceBy v h k = (Scan.advance v h)^[k] x := by
  induction k with
  | zero => rfl
  | succ k ih => rw [Scan.advanceBy, ih, Function.iterate_succ_apply']

theorem Scan.advanceBy_add (v h j k : Nat) (x : Scan) :
    x.advanceBy v h (j + k) = (x.advanceBy v h j).advanceBy v h k := by
  simp only [Scan.advanceBy_eq_iterate, Nat.add_comm j k, Function.iterate_add_apply]

section Frame

variable {v h : Nat} (hv : 1 ≤ v) (hvmax : v ≤ 65535) (hhmax : h ≤ 65535)
include hv hvmax hhmax

/-- A whole pass leads to line 0 of the other field (R124). -/
theorem Scan.advanceBy_pass (f : FieldParity) :
    (Scan.onLine v h 0 f).advanceBy v h (v + h + 241) = Scan.onLine v h 0 f.toggle := by
  rw [Scan.advanceBy, Scan.advanceBy_within hvmax hhmax f (Nat.lt_succ_self _), Scan.onLine,
    Scan.advance_last hvmax hhmax rfl, Scan.onLine, modeOfLine_vsync hv]

/-- The first pass from (VSync, 0, Odd) is the odd field. -/
theorem Scan.advanceBy_initial_odd {k : Nat} (hk : k < v + h + 241) :
    Scan.initial.advanceBy v h k = Scan.onLine v h k .odd := by
  rw [Scan.initial_eq_onLine h hv, Scan.advanceBy_within hvmax hhmax _ hk]

/-- The second pass is the even field. -/
theorem Scan.advanceBy_initial_even {k : Nat} (hk : k < v + h + 241) :
    Scan.initial.advanceBy v h (v + h + 241 + k) = Scan.onLine v h k .even := by
  rw [Scan.initial_eq_onLine h hv, Scan.advanceBy_add, Scan.advanceBy_pass hv hvmax hhmax,
    Scan.advanceBy_within hvmax hhmax _ hk]
  rfl

/-- Two passes lead back to where the walk began (R124). -/
theorem Scan.advanceBy_initial_frame : Scan.initial.advanceBy v h (2 * (v + h + 241)) = Scan.initial := by
  rw [Scan.initial_eq_onLine h hv, Nat.two_mul, Scan.advanceBy_add, Scan.advanceBy_pass hv hvmax hhmax,
    Scan.advanceBy_pass hv hvmax hhmax]
  rfl

/-- Either pass of a frame has the modes of R22, line by line (R124). -/
theorem Scan.countP_mode_of_pass {start : Nat} (hstart : start = 0 ∨ start = v + h + 241) (g : ScanMode) :
    ((List.range (v + h + 241)).countP fun k => (Scan.initial.advanceBy v h (start + k)).mode == g) =
      ((List.range (v + h + 241)).map (modeOfLine v h)).count g := by
  have hmode : ∀ k ∈ List.range (v + h + 241),
      (Scan.initial.advanceBy v h (start + k)).mode = modeOfLine v h k := by
    intro k hk
    rw [List.mem_range] at hk
    rcases hstart with rfl | rfl
    · rw [Nat.zero_add, Scan.advanceBy_initial_odd hv hvmax hhmax hk]
      rfl
    · rw [Scan.advanceBy_initial_even hv hvmax hhmax hk]
      rfl
  rw [List.count_eq_countP, List.countP_map]
  exact List.countP_congr fun k hk => by simp [hmode k hk]

end Frame

/-- Settles O38: ADVANCE keeps the invariant by cases of R118, and the walk is two passes, each from line 0 to its last. -/
theorem scanWalkIsPeriodic : Obligations.ScanWalkIsPeriodic := by
  refine ⟨fun s hv hvmax hhmax hinv => ?_, fun v h hv hvmax hhmax => ⟨fun k hk => ?_, fun k => ?_, fun start hstart => ?_⟩⟩
  · have hnext := hinv.advance hv hvmax hhmax
    have ⟨_, hmode⟩ := hnext
    exact ⟨hnext, hmode, rfl, fun t hcfg hscan => by rw [State.advance_scan, State.advance_scan, hcfg, hscan]⟩
  · exact ⟨Scan.advanceBy_initial_odd hv hvmax hhmax hk, Scan.advanceBy_initial_even hv hvmax hhmax hk⟩
  · rw [Scan.advanceBy_add, Scan.advanceBy_initial_frame hv hvmax hhmax]
  · simp only [Scan.countP_mode_of_pass hv hvmax hhmax hstart, map_modeOfLine_range, List.count_append,
      List.count_replicate]
    simp

/-- Settles O37: the next line of the pass has the mode of its place, and after the last line comes line 0 (R119 to R122). -/
theorem advanceSteps : Obligations.AdvanceSteps := by
  intro v h l f hv hvmax hhmax
  have hwithin := fun hl m => Scan.advance_within (l := l) hvmax hhmax hl m f
  refine ⟨fun hl => ?_, fun hl hh => ?_, fun hvl hl => ?_, fun m hl => ?_, fun hvhl hl => ?_, fun hl => ?_⟩
  · rw [hwithin (by omega), Scan.onLine, modeOfLine_vsync hl]
  · rw [hwithin (by omega), Scan.onLine, hl, modeOfLine_hsync le_rfl (by omega)]
  · rw [hwithin (by omega), Scan.onLine, modeOfLine_hsync (by omega) hl]
  · rw [hwithin (by omega), Scan.onLine, hl, modeOfLine_video le_rfl]
  · rw [hwithin hl, Scan.onLine, modeOfLine_video (by omega)]
  · rw [Scan.advance_last hvmax hhmax hl]
    cases f <;> rfl

/-! ## The rows of a frame -/

theorem Scan.rowRead_blank {v h l : Nat} (hl : l < v + h) (f : FieldParity) : (Scan.onLine v h l f).rowRead v h = none := by
  rcases Nat.lt_or_ge l v with hv | hv
  · simp [Scan.onLine, Scan.rowRead, modeOfLine_vsync hv]
  · simp [Scan.onLine, Scan.rowRead, modeOfLine_hsync hv hl]

/-- Picture line `k` of a field reads row 2k + FIELD (R115). -/
theorem Scan.rowRead_picture {v h k : Nat} (hk : v + h + k < 4294967296) (f : FieldParity) :
    (Scan.onLine v h (v + h + k) f).rowRead v h = some (2 * k + f.bit.toNat) := by
  have hline : (BitVec.ofNat 32 (v + h + k)).toNat - v - h = k := by
    rw [BitVec.toNat_ofNat, Nat.mod_eq_of_lt hk]
    omega
  simp only [Scan.onLine, Scan.rowRead, modeOfLine_video (Nat.le_add_right ..), hline]

/-- A pass reads the rows of its field's parity, ascending (R116). -/
theorem Scan.filterMap_rowRead_pass {v h : Nat} (hvmax : v ≤ 65535) (hhmax : h ≤ 65535) (f : FieldParity) :
    ((List.range (v + h + 241)).filterMap fun k => (Scan.onLine v h k f).rowRead v h) =
      (List.range 241).map fun k => 2 * k + f.bit.toNat := by
  have hblank : ((List.range (v + h)).filterMap fun k => (Scan.onLine v h k f).rowRead v h) = [] :=
    List.filterMap_eq_nil_iff.2 fun k hk => Scan.rowRead_blank (List.mem_range.1 hk) f
  rw [List.range_add, List.filterMap_append, hblank, List.nil_append, List.filterMap_map, ← List.filterMap_eq_map']
  exact List.filterMap_congr fun k hk => Scan.rowRead_picture (by have := List.mem_range.1 hk; omega) f

/-- The rows of a frame are those of the odd pass, then those of the even pass (R116). -/
theorem Scan.filterMap_rowRead_frame {v h : Nat} (hv : 1 ≤ v) (hvmax : v ≤ 65535) (hhmax : h ≤ 65535) :
    ((List.range (2 * (v + h + 241))).filterMap fun k => (Scan.initial.advanceBy v h k).rowRead v h) =
      (List.range 241).map (fun k => 2 * k + 1) ++ (List.range 241).map fun k => 2 * k := by
  rw [Nat.two_mul, List.range_add, List.filterMap_append, List.filterMap_map]
  congr 1
  · refine (List.filterMap_congr fun k hk => ?_).trans (Scan.filterMap_rowRead_pass hvmax hhmax .odd)
    rw [Scan.advanceBy_initial_odd hv hvmax hhmax (List.mem_range.1 hk)]
  · refine (List.filterMap_congr fun k hk => ?_).trans (Scan.filterMap_rowRead_pass hvmax hhmax .even)
    rw [Function.comp, Scan.advanceBy_initial_even hv hvmax hhmax (List.mem_range.1 hk)]

/-- The odd and the even numbers below 2n are the numbers below 2n. -/
theorem odds_append_evens_perm (n : Nat) :
    ((List.range n).map (fun k => 2 * k + 1) ++ (List.range n).map fun k => 2 * k).Perm (List.range (2 * n)) := by
  have hodd : ((List.range n).map fun k => 2 * k + 1).Nodup := List.nodup_range.map fun j k hjk => by simpa using hjk
  have heven : ((List.range n).map fun k => 2 * k).Nodup := List.nodup_range.map fun j k hjk => by simpa using hjk
  have hdisjoint : ((List.range n).map fun k => 2 * k + 1).Disjoint ((List.range n).map fun k => 2 * k) := by
    simp only [List.disjoint_left, List.mem_map]
    rintro _ ⟨j, -, rfl⟩ ⟨k, -, hjk⟩
    omega
  refine (List.perm_ext_iff_of_nodup (hodd.append heven hdisjoint) List.nodup_range).2 fun a => ?_
  simp only [List.mem_append, List.mem_map, List.mem_range]
  constructor
  · rintro (⟨k, hk, rfl⟩ | ⟨k, hk, rfl⟩) <;> omega
  · intro ha
    rcases Nat.even_or_odd' a with ⟨k, rfl | rfl⟩
    · exact .inr ⟨k, by omega, rfl⟩
    · exact .inl ⟨k, by omega, rfl⟩

/-- Settles O39: the two passes of a frame read the odd rows, then the even rows. -/
theorem aFrameReadsEachRowOnce : Obligations.AFrameReadsEachRowOnce := by
  intro v h hv hvmax hhmax
  have hrows := Scan.filterMap_rowRead_frame hv hvmax hhmax
  have hperm := hrows ▸ odds_append_evens_perm 241
  exact ⟨hrows, hperm, fun hmem => by simpa using hperm.mem_iff.1 hmem⟩

/-! ## The segments of a scanline, one after the other -/

/-- The sample indices of a segment in ascending order (R105, R106). -/
def Timing.sampleList (t : Timing) : Segment → List Nat
  | .syncTip => List.range' 0 t.tip.toNat
  | .backPorch => List.range' t.tip.toNat t.bp.toNat
  | .activeVideo => List.range' (t.tip.toNat + t.bp.toNat) t.act.toNat
  | .frontPorch =>
      List.range' (t.tip.toNat + t.bp.toNat + t.act.toNat) (t.spl.toNat - t.tip.toNat - t.bp.toNat - t.act.toNat)

/-- A scanline is its four segments in order (R105). -/
theorem Timing.range_spl {t : Timing} (h : t.valid = true) :
    List.range t.spl.toNat =
      t.sampleList .syncTip ++ t.sampleList .backPorch ++ t.sampleList .activeVideo ++ t.sampleList .frontPorch := by
  have hends := Timing.active_ends_within h
  have htotal : t.spl.toNat =
      t.tip.toNat + t.bp.toNat + t.act.toNat + (t.spl.toNat - t.tip.toNat - t.bp.toNat - t.act.toNat) := by omega
  conv_lhs => rw [List.range_eq_range', htotal, ← List.range'_append_1, ← List.range'_append_1, ← List.range'_append_1]
  simp only [Nat.zero_add, Timing.sampleList]

theorem Timing.segmentAt_of_mem_sampleList {t : Timing} (h : t.valid = true) {g : Segment} {i : Nat}
    (hi : i ∈ t.sampleList g) : t.segmentAt i = g := by
  have hends := Timing.active_ends_within h
  refine Timing.segmentAt_of_mem ?_
  cases g <;> obtain ⟨hfirst, hlast⟩ := List.mem_range'_1.1 hi <;> exact Finset.mem_Ico.2 ⟨hfirst, by omega⟩

/-- Only the ActiveVideo segment of a Video scanline reads the framebuffer (R107). -/
theorem State.elementRead_eq_none {s : State} {i : Nat}
    (h : s.scan.mode = .video → s.timing.segmentAt i ≠ .activeVideo) : s.elementRead i = none := by
  rw [State.elementRead]
  split
  · next hvideo hactive => exact absurd hactive (h hvideo)
  · rfl

/-- The samples of a segment that reads nothing all have the segment's fixed level (R107, R108). -/
theorem State.segment_of_no_read {s : State} (ht : s.timing.valid = true) {g : Segment}
    (hg : s.scan.mode = .video → g ≠ .activeVideo) :
    (s.timing.sampleList g).filterMap s.elementRead = [] ∧
      (s.timing.sampleList g).map s.pairAt =
        (List.replicate (s.timing.sampleList g).length ⟨0#16, g.fixedLevel⟩).map some := by
  have hread : ∀ i ∈ s.timing.sampleList g, s.elementRead i = none := fun i hi =>
    State.elementRead_eq_none (Timing.segmentAt_of_mem_sampleList ht hi ▸ hg)
  have hpair : ∀ i ∈ s.timing.sampleList g, s.pairAt i = some ⟨0#16, g.fixedLevel⟩ := by
    intro i hi
    rw [State.pairAt, State.videoSample, hread i hi, Timing.segmentAt_of_mem_sampleList ht hi]
    rfl
  exact ⟨List.filterMap_eq_nil_iff.2 hread, by rw [List.map_replicate, List.map_eq_replicate_iff.2 hpair]⟩

section Scanline

variable {s : State} (ht : s.timing.valid = true)
include ht

/-- In every mode a scanline reads what its active segment reads. -/
theorem State.scanlineReads_eq_active :
    s.scanlineReads = (s.timing.sampleList .activeVideo).filterMap s.elementRead := by
  obtain ⟨htip, -⟩ := State.segment_of_no_read ht (g := .syncTip) (by simp)
  obtain ⟨hporch, -⟩ := State.segment_of_no_read ht (g := .backPorch) (by simp)
  obtain ⟨hrest, -⟩ := State.segment_of_no_read ht (g := .frontPorch) (by simp)
  rw [State.scanlineReads, Timing.range_spl ht, List.filterMap_append, List.filterMap_append, List.filterMap_append, htip,
    hporch, hrest, List.nil_append, List.nil_append, List.append_nil]

/-- In every mode a scanline is the sync tip, the back porch, the pairs of its active segment, and blanking to its end
(R112 to R114). -/
theorem State.produce_of_active {active : List Pair} (hb : s.rowOutOfBounds = false)
    (hactive : (s.timing.sampleList .activeVideo).map s.pairAt = active.map some) :
    s.produce = some (List.replicate s.timing.tip.toNat ⟨0#16, blackLevel⟩ ++
      List.replicate s.timing.bp.toNat ⟨0#16, blankLevel⟩ ++ active ++
      List.replicate (s.timing.spl.toNat - s.timing.tip.toNat - s.timing.bp.toNat - s.timing.act.toNat)
        ⟨0#16, blankLevel⟩) := by
  obtain ⟨-, htip⟩ := State.segment_of_no_read ht (g := .syncTip) (by simp)
  obtain ⟨-, hporch⟩ := State.segment_of_no_read ht (g := .backPorch) (by simp)
  obtain ⟨-, hrest⟩ := State.segment_of_no_read ht (g := .frontPorch) (by simp)
  rw [State.produce, if_neg (by simp [hb]), allSome_eq_some, Timing.range_spl ht, List.map_append, List.map_append,
    List.map_append, htip, hporch, hactive, hrest]
  simp only [List.map_append, Timing.sampleList, List.length_range', Segment.fixedLevel]

end Scanline

/-! ## Scanlines without a picture -/

/-- Settles O30: the active segment too reads nothing, and is blanking like the porches around it. -/
theorem blankScanlines : Obligations.BlankScanlines := by
  intro s ht hm
  have hblank : s.scan.mode ≠ .video := by rcases hm with hm | hm <;> simp [hm]
  have hbounds : s.rowOutOfBounds = false := by rcases hm with hm | hm <;> simp [State.rowOutOfBounds, hm]
  obtain ⟨hread, hpairs⟩ := State.segment_of_no_read ht (g := .activeVideo) fun hvideo => absurd hvideo hblank
  have hends := Timing.active_ends_within ht
  refine ⟨?_, (State.scanlineReads_eq_active ht).trans hread⟩
  rw [State.produce_of_active ht hbounds hpairs, List.append_assoc, List.append_assoc, Timing.sampleList,
    List.length_range', Segment.fixedLevel, List.replicate_append_replicate, List.replicate_append_replicate]
  congr 3
  omega

/-! ## Scanlines of the picture -/

section Picture

variable {s : State} {row c : Nat} (hm : s.scan.mode = .video) (hr : s.lineIndex = some row)
  (hc : c < s.timing.act.toNat)
include hm hr hc

/-- Active sample `c` of a Video scanline reads column `c` of its row (R107, R115). -/
theorem State.elementRead_column : s.elementRead (s.timing.tip.toNat + s.timing.bp.toNat + c) = some (some row, c) :=
  (State.elementRead_column_iff hm hr hc _).2 rfl

theorem State.pairAt_column (ha : s.fbAlloc = true) (hrow : row < 483) :
    s.pairAt (s.timing.tip.toNat + s.timing.bp.toNat + c) = some ⟨0#16, luma (s.fb.read (fbKey row c))⟩ := by
  rw [State.pairAt, State.videoSample, State.elementRead_column hm hr hc]
  simp only [State.fbRead_of_exists ha hrow hc, Option.map_some]

end Picture

/-- Settles O31: the active segment reads column after column of its row and shows their luma. -/
theorem videoScanlines : Obligations.VideoScanlines := by
  intro s row ht ha hm hr hrow
  have hrow' : row < 483 := Nat.lt_succ_of_le hrow
  have hbounds : s.rowOutOfBounds = false := by simpa [State.rowOutOfBounds, hm, hr] using hrow'
  refine ⟨_, State.rowBytes_of_exists ha hrow', by simp, ?_, ?_⟩
  · refine State.produce_of_active ht hbounds ?_
    rw [Timing.sampleList, List.range'_eq_map_range, List.map_map, List.map_map, List.map_map]
    exact List.map_congr_left fun c hc => State.pairAt_column hm hr (List.mem_range.1 hc) ha hrow'
  · rw [State.scanlineReads_eq_active ht, Timing.sampleList, List.range'_eq_map_range, List.filterMap_map,
      ← List.filterMap_eq_map']
    exact List.filterMap_congr fun c hc => State.elementRead_column hm hr (List.mem_range.1 hc)

end Sys2Proof.Machine
end

section
/-! PROOFS. The host's side of the port (spec/44_stream_and_lifecycle.md): RDREG (R133), STOP (R144), INIT with the order of its
checks (R134 to R138), and the chunks in which a scanline is handed over (R152). -/

namespace Sys2Proof.Machine

/-! ## RDREG -/

theorem exec_rdReg_assigned {reg : Byte} {r : RegName} (h : regOfNumber reg = some r) (s : State) :
    exec (.rdReg reg) s = .next (s.respond (some (.rdReg reg)) Status.ok.code (.word (s.readReg r))) := by
  simp [exec, execRdReg, State.readNumber, h]

theorem exec_rdReg_unassigned {reg : Byte} (h : regOfNumber reg = none) (s : State) :
    exec (.rdReg reg) s = .next (s.answer (.rdReg reg) .badCmd) := by
  simp [exec, execRdReg, State.readNumber, h]

/-- The line counts play no part in COMPUTETIMING (R80). -/
theorem ConfigRegs.computeTiming_with_lines (c : ConfigRegs) (vsyncLines hsyncLines : Word) :
    ConfigRegs.computeTiming { c with vsyncLines, hsyncLines } = c.computeTiming := rfl

/-- ERR reads with zeros above its eight bits (R26). -/
theorem State.readReg_err_toNat (s : State) : (s.readReg .err).toNat = s.err.toNat := by
  rw [State.readReg, BitVec.toNat_setWidth_of_le (by decide)]

/-- Settles O10: the value answered is `readReg`'s, and SPL reads 64 by the worked example of COMPUTETIMING. -/
theorem rdRegReadsWithoutSideEffect : Obligations.RdRegReadsWithoutSideEffect := by
  refine ⟨fun s _ _ h => exec_rdReg_assigned h s, fun s _ h => exec_rdReg_unassigned h s,
    decode_encode (.rdReg RegName.spl.number), fun s htiming hcfg => ?_, fun s => ?_⟩
  · obtain ⟨-, hexample⟩ := computeTimingRule
    rw [hcfg, ← ConfigRegs.computeTiming_with_lines _ s.cfg.vsyncLines s.cfg.hsyncLines] at htiming
    have heq := htiming.symm.trans hexample
    exact congrArg Timing.spl (Option.some.inj heq)
  · refine ⟨rfl, rfl, rfl, rfl, rfl, rfl, rfl, rfl, rfl, rfl, rfl, rfl, rfl, ?_, rfl, ?_, rfl, s.readReg_err_toNat⟩
    · rw [State.readReg]
      cases s.scan.mode <;> rfl
    · rw [State.readReg]
      cases s.scan.field <;> rfl

/-! ## STOP -/

theorem exec_stop_open {s : State} (h : s.life ≠ .closed) :
    exec .stop s = .next (({ s with stopReq := true }).answer .stop .ok) := by
  rw [exec, execStop]
  split
  · next hc => exact absurd hc h
  all_goals rfl

theorem exec_stop_closed {s : State} (h : s.life = .closed) : exec .stop s = .next (s.answer .stop .badState) := by
  rw [exec, execStop, h]

/-- Settles O27: STOP answers and sets STOP_REQ, and setting it again changes nothing. -/
theorem stopSetsTheRequest : Obligations.StopSetsTheRequest := by
  refine ⟨fun _ h => exec_stop_open h, fun _ h => exec_stop_closed h, fun s t u h ht hu => ?_⟩
  obtain rfl := Host.Outcome.next.inj ((exec_stop_open h).symm.trans ht)
  obtain rfl := Host.Outcome.next.inj ((exec_stop_open (by simpa using h)).symm.trans hu)
  rfl

/-! ## INIT -/

theorem exec_init_error {s : State} {e : Status} (hl : s.life = .closed) (h : s.initCheck = .error e) :
    exec .init s = .next (s.answer .init e) := by
  simp [exec, execInit, hl, h]

theorem exec_init_pass {s : State} {t : Timing} (hl : s.life = .closed) (h : s.initCheck = .pass t) :
    exec .init s = .next ((s.opened t).answer .init .ok) := by
  simp [exec, execInit, hl, h]

theorem State.storageExhausted_iff (s : State) (cols : Nat) :
    s.storageExhausted cols = true ↔ s.params.fbCapacityBytes < 483 * cols := by
  rw [State.storageExhausted, decide_eq_true_eq]

/-- The configuration is checked first (R135). -/
theorem State.initCheck_config {s : State} (h : s.cfg.linesLegal = false ∨ s.cfg.computeTiming = none) :
    s.initCheck = .error .configError := by
  unfold State.initCheck
  rcases h with h | h <;> simp [h]

section Configured

variable {s : State} {t : Timing} (hv : 1 ≤ s.cfg.v) (hvmax : s.cfg.v ≤ 65535) (hh : s.cfg.h ≤ 65535)
  (ht : s.cfg.computeTiming = some t)
include hv hvmax hh ht

/-- The storage is checked second (R135). -/
theorem State.initCheck_storage (h : s.params.fbCapacityBytes < 483 * t.act.toNat) :
    s.initCheck = .error .allocationError := by
  have hlines := s.cfg.linesLegal_iff.2 ⟨hv, hvmax, hh⟩
  simp [State.initCheck, hlines, ht, s.storageExhausted_iff, h]

/-- The sink is set up last, and decides (R135, R136). -/
theorem State.initCheck_sink (h : 483 * t.act.toNat ≤ s.params.fbCapacityBytes) :
    (s.sinkSetup = .openFailed → s.initCheck = .error .deviceOpenError) ∧
    (s.sinkSetup = .configFailed → s.initCheck = .error .deviceConfigError) ∧
    (s.sinkSetup = .ok → s.initCheck = .pass t) := by
  have hlines := s.cfg.linesLegal_iff.2 ⟨hv, hvmax, hh⟩
  have hstore : ¬ s.storageExhausted t.act.toNat = true := by rw [s.storageExhausted_iff]; omega
  rw [State.initCheck, if_pos hlines, ht]
  refine ⟨fun hsink => ?_, fun hsink => ?_, fun hsink => ?_⟩
  all_goals rw [hsink]; exact if_neg hstore

end Configured

/-- Settles O16: each clause is the check that fails, and a failed check is answered and nothing else. -/
theorem initReportsTheFirstFailingCheck : Obligations.InitReportsTheFirstFailingCheck := by
  refine fun s hl => ⟨fun hconfig => exec_init_error hl (State.initCheck_config ?_), fun t hv hvmax hh ht =>
    ⟨fun hstore => exec_init_error hl (State.initCheck_storage hv hvmax hh ht hstore), fun hstore => ?_⟩⟩
  · rw [← Bool.not_eq_true, s.cfg.linesLegal_iff]
    by_cases htiming : s.cfg.computeTiming = none
    · exact .inr htiming
    · refine .inl ?_
      simp only [htiming, or_false] at hconfig
      omega
  · obtain ⟨hopen, hconfig, -⟩ := State.initCheck_sink hv hvmax hh ht hstore
    exact ⟨fun hsink => exec_init_error hl (hopen hsink), fun hsink => exec_init_error hl (hconfig hsink)⟩

/-- Nothing is listed in a store just allocated, so every element of a row reads 0 (R29, R90). -/
theorem State.rowBytes_of_empty {s : State} (ha : s.fbAlloc = true) (hfb : s.fb = []) {row : Nat} (hrow : row < 483) :
    s.rowBytes row = some (List.replicate s.timing.act.toNat 0#8) := by
  rw [State.rowBytes_of_exists ha hrow, hfb]
  simp [Memory.read]

/-- Settles O15: the checks pass, so INIT leaves the opened block with its response. -/
theorem initOpensTheBlock : Obligations.InitOpensTheBlock := by
  intro s t hl hv hvmax hh ht hstore hsink
  obtain ⟨-, -, hpass⟩ := State.initCheck_sink hv hvmax hh ht hstore
  refine ⟨_, exec_init_pass hl (hpass hsink), rfl, ConfigRegs.computeTiming_valid ht, fun row col hrow hcol => ?_,
    fun row hrow => ?_⟩
  · exact State.fbRead_of_exists rfl (Nat.lt_succ_of_le hrow) hcol
  · exact State.rowBytes_of_empty rfl rfl (Nat.lt_succ_of_le hrow)

/-! ## Chunks -/

/-- Cutting is the library's `splitLengths`. -/
theorem cut_eq_splitLengths {α : Type} (ns : List Nat) (l : List α) : cut ns l = ns.splitLengths l := by
  induction ns generalizing l with
  | nil => rfl
  | cons n ns ih => simp [cut, ih]

theorem chunkLength_pos (spl div : Nat) : 0 < chunkLength spl div := Nat.le_max_left ..

/-- All chunks but the last fall short of the scanline, and all of them reach its end: their number is the ceiling (R152). -/
theorem chunkCount_bounds {spl : Nat} (h : 1 ≤ spl) (div : Nat) :
    (chunkCount spl div - 1) * chunkLength spl div < spl ∧ spl ≤ chunkCount spl div * chunkLength spl div := by
  have hpos := chunkLength_pos spl div
  have hlower : chunkCount spl div * chunkLength spl div ≤ spl + chunkLength spl div - 1 := Nat.div_mul_le_self _ _
  have hupper : spl + chunkLength spl div - 1 < (chunkCount spl div + 1) * chunkLength spl div :=
    Nat.lt_mul_of_div_lt (Nat.lt_succ_self _) hpos
  rw [Nat.add_one_mul] at hupper
  rw [Nat.sub_one_mul]
  omega

theorem chunkCount_pos {spl : Nat} (h : 1 ≤ spl) (div : Nat) : 1 ≤ chunkCount spl div := by
  obtain ⟨-, hreach⟩ := chunkCount_bounds h div
  exact Nat.pos_of_mul_pos_right (h.trans hreach)

theorem length_chunkLengths {spl : Nat} (h : 1 ≤ spl) (div : Nat) : (chunkLengths spl div).length = chunkCount spl div := by
  have hcount := chunkCount_pos h div
  simp only [chunkLengths, List.length_append, List.length_replicate, List.length_singleton]
  omega

/-- The remainder is what the other chunks leave of the scanline. -/
theorem sum_chunkLengths {spl : Nat} (h : 1 ≤ spl) (div : Nat) : (chunkLengths spl div).sum = spl := by
  obtain ⟨hshort, -⟩ := chunkCount_bounds h div
  rw [chunkLengths, List.sum_append_nat, List.sum_replicate_nat, List.sum_singleton, Nat.mul_comm (chunkLength spl div)]
  omega

theorem chunkLengths_getElem? {spl div k : Nat} (hk : k < chunkCount spl div - 1) :
    (chunkLengths spl div)[k]? = some (chunkLength spl div) := by
  rw [chunkLengths, List.getElem?_append_left (by simpa using hk), List.getElem?_replicate, if_pos hk]

theorem chunkLengths_getLast? (spl div : Nat) :
    (chunkLengths spl div).getLast? = some (spl - chunkLength spl div * (chunkCount spl div - 1)) := by
  rw [chunkLengths, List.getLast?_concat]

/-- Settles O35: the lengths sum to SPL, so the pieces cut are of just these lengths and join to the scanline. -/
theorem chunksOfAScanline : Obligations.ChunksOfAScanline := by
  refine ⟨fun s line hspl _ hline => ?_, by decide, by decide, by decide, by decide⟩
  have hsum := (sum_chunkLengths hspl s.params.chunkDiv).trans hline.symm
  have hchunks : s.chunksOf line = (chunkLengths s.timing.spl.toNat s.params.chunkDiv).splitLengths line :=
    cut_eq_splitLengths _ _
  have hlengths := List.map_splitLengths_length line _ hsum.le
  have hcount := (List.length_splitLengths line _).trans (length_chunkLengths hspl s.params.chunkDiv)
  rw [← hchunks] at hlengths hcount
  obtain ⟨hshort, hreach⟩ := chunkCount_bounds hspl s.params.chunkDiv
  intro spl c chunks
  refine ⟨?_, ?_, ?_, fun k hk => ?_, ?_⟩
  · rw [show chunks = _ from hchunks]
    exact List.flatten_splitLengths line _ hsum.ge
  · exact hcount ▸ hshort
  · exact hcount ▸ hreach
  · rw [← List.getElem?_map, hlengths]
    exact chunkLengths_getElem? (Nat.lt_sub_of_add_lt (hk.trans_eq hcount))
  · rw [← List.getLast?_map, hlengths, hcount]
    exact chunkLengths_getLast? _ _

end Sys2Proof.Machine
end

section
/-! PROOFS. The errors answered to the caller alone (spec/60_exceptions.md): IndexError (R165). -/

namespace Sys2Proof.Machine

/-! ## IndexError -/

/-- A SETPIXEL of an element that does not exist, outside CLOSED (R94, R139). -/
theorem State.setPixel_of_absent {s : State} (hl : s.life ≠ .closed) {row : BitVec 16} {col : Word}
    (hx : s.elementExists row.toNat col.toNat = false) (value : Byte) :
    s.setPixel row col value = s.answer (.setPixel row col value) .indexError := by
  have hwrite : s.fbWrite row.toNat col.toNat value = none := by simp [State.fbWrite, hx]
  unfold State.setPixel
  split
  · next hclosed => exact absurd hclosed hl
  all_goals rw [hwrite]

/-- A GETROW of a row that does not exist, outside CLOSED (R92, R140). -/
theorem State.getRow_of_absent {s : State} (hl : s.life ≠ .closed) {row : BitVec 16}
    (hx : s.rowExists row.toNat = false) : s.getRow row = s.answer (.getRow row) .indexError := by
  rw [State.getRow_open hl, State.rowBytes_of_absent hx, State.answerRow]

/-- Settles O25: out of range there is no element and no row (R41), so the framebuffer answers IndexError. -/
theorem indexErrorsAreLocal : Obligations.IndexErrorsAreLocal := by
  intro s row col value hl
  refine ⟨fun hrange => ?_, fun hrange => ?_⟩
  · have habsent : s.elementExists row.toNat col.toNat = false := by
      refine Bool.eq_false_iff.2 fun hx => ?_
      obtain ⟨-, hrow, hcol⟩ := State.elementExists_iff.1 hx
      omega
    exact congrArg Host.Outcome.next (State.setPixel_of_absent hl habsent value)
  · have habsent : s.rowExists row.toNat = false := by
      refine Bool.eq_false_iff.2 fun hx => ?_
      obtain ⟨-, hrow⟩ := State.rowExists_iff.1 hx
      omega
    exact congrArg Host.Outcome.next (State.getRow_of_absent hl habsent)

end Sys2Proof.Machine
end

section
/-! PROOFS. Reset and hazards (spec/70_reset_and_hazards.md): the reset configuration is not usable (R196), and a host that keeps
the hazard rule sees every scanline carry its row (R197). -/

namespace Sys2Proof.Machine

/-! ## The reset configuration -/

/-- A front porch of no sample is a ConfigError (R84). -/
theorem ConfigRegs.computeTiming_of_no_frontPorch {c : ConfigRegs}
    (h : count c.frontPorchUs10.toNat c.sampleRate.toInt.toNat = 0) : c.computeTiming = none := by
  refine Option.eq_none_iff_forall_ne_some.2 fun t ht => ?_
  obtain ⟨-, -, rfl, hvalid⟩ := (c.computeTiming_eq_some_iff t).1 ht
  obtain ⟨-, -, -, -, hfp, -⟩ := (Timing.valid_iff_natAbs _).1 hvalid
  exact hfp (by simp [ConfigRegs.countsAt, h])

/-- Settles O17: V is 0, a default front porch has no sample below 357143, and the three rates named are computed. -/
theorem resetConfigurationIsNotUsable : Obligations.ResetConfigurationIsNotUsable := by
  refine ⟨exec_init_error rfl (State.initCheck_config (.inl rfl)), rfl, rfl, fun c f hf hc => ?_, by decide, by decide,
    by decide⟩
  have hnat : (BitVec.ofNat 32 f).toNat = f := by rw [BitVec.toNat_ofNat]; omega
  have hrate : (BitVec.ofNat 32 f).toInt.toNat = f := by
    rw [BitVec.toInt_eq_toNat_of_lt (by omega), Int.toNat_natCast, hnat]
  have hcount : count 14 (BitVec.ofNat 32 f).toInt.toNat = 0 := by
    rw [hrate]
    exact count_eq_zero_of_lt (by omega)
  rw [hc]
  exact ConfigRegs.computeTiming_of_no_frontPorch hcount

/-! ## The scanline under the hazard rule -/

/-- A write to another row than that of the present Video scanline leaves its pairs (R107, R197). -/
theorem State.produce_write_other {s : State} {row r c : Nat} (v : Byte) (hx : s.elementExists r c = true)
    (hr : s.lineIndex = some row) (hne : r ≠ row) :
    State.produce { s with fb := s.fb.write (fbKey r c) v } = s.produce := by
  have hpairs : State.pairAt { s with fb := s.fb.write (fbKey r c) v } = s.pairAt := by
    refine funext fun i => State.pairAt_write_other v hx fun he => hne ?_
    simp only [State.elementRead] at he
    split at he
    · simp only [hr, Option.some.injEq, Prod.mk.injEq] at he
      exact he.1.symm
    · simp at he
  simp only [State.produce, hpairs]
  rfl

/-- The machine `t` inside the scanline at whose start the machine is `s`: the sink has accepted the first `n` of its pairs `ps`,
the scanline is still that of the line start, and the events `rest` are to come. -/
structure State.InLineOf (s : State) (ps : List Pair) (n : Nat) (rest : List Input) (t : State) : Prop where
  running : t.life = .running
  active : t.lineActive = true
  scan : t.scan = s.scan
  lineIndex : t.lineIndex = s.lineIndex
  produce : t.produce = some ps
  sil : t.sil.toNat = n
  stream : t.stream = s.stream ++ ps.take n
  inputs : t.inputs = rest

section Line

variable {s t : State} {ps : List Pair} {n : Nat} {rest : List Input} (h : s.InLineOf ps n rest t)
include h

theorem State.InLineOf.respond (c : Option Instr) (st : Byte) (p : Payload) : s.InLineOf ps n rest (t.respond c st p) :=
  { h with }

/-- A write to another row (R197). -/
theorem State.InLineOf.write {row r c : Nat} (v : Byte) (hr : s.lineIndex = some row) (hx : t.elementExists r c = true)
    (hne : r ≠ row) : s.InLineOf ps n rest { t with fb := t.fb.write (fbKey r c) v } :=
  { h with produce := (State.produce_write_other v hx (h.lineIndex.trans hr) hne).trans h.produce }

/-- A command that keeps the hazard rule: while RUNNING it answers, with STOP_REQ set or another row written at most (R197). -/
theorem State.InLineOf.exec {row : Nat} {i : Instr} (hr : s.lineIndex = some row)
    (hi : ∀ r c v, i = .setPixel r c v → r.toNat ≠ row) :
    ∃ u, exec i t = .next u ∧ s.InLineOf ps n rest u := by
  obtain ⟨u, hu, hcases⟩ := exec_cases i t
  refine ⟨u, hu, ?_⟩
  rcases hcases with ⟨st, p, rfl, -⟩ | ⟨-, hl, -⟩ | ⟨-, hl, -⟩ | ⟨-, hl, -⟩ | ⟨-, hl, -⟩ | ⟨-, -, rfl⟩ |
    ⟨_, _, _, -, hl, -⟩ | ⟨r, c, v, rfl, -, hx, rfl⟩
  · exact h.respond ..
  · simp [h.running] at hl
  · simp [h.running] at hl
  · simp [h.running] at hl
  · simp [h.running] at hl
  · have hstop : s.InLineOf ps n rest { t with stopReq := true } := { h with }
    exact hstop.respond ..
  · simp [h.running] at hl
  · exact (h.write v hr hx (hi r c v rfl)).respond ..

/-- A turn of the encoder before the last pair is accepted: the sink takes the next pair of the line start's scanline, or none
(R126, R154). -/
theorem State.InLineOf.encoderStep {a : SinkAnswer} (hn : n < ps.length) (ha : a ≠ .fail) :
    s.InLineOf ps (n + acceptsIn [.encoder a]) rest (t.encoderStep a) := by
  obtain ⟨hlen, hpairs⟩ := State.produce_eq_some h.produce
  have hs : t.sil.toNat < t.timing.spl.toNat := by rw [h.sil, ← hlen]; exact hn
  have hpair : t.pairAt t.sil.toNat = some ps[n] := by rw [hpairs _ hs, h.sil, List.getElem?_eq_getElem hn]
  cases a with
  | fail => exact absurd rfl ha
  | stall =>
    have hstall : t.encoderStep .stall = t := by
      simp [State.encoderStep, State.sampleStep, h.running, h.active, hs, hpair]
    rw [hstall]
    exact h
  | accept =>
    rw [State.encoderStep_accept h.running h.active hs hpair]
    have hsil := h.sil
    have hnext : (t.sil + 1#32).toNat = n + 1 := by bv_omega
    exact { h with
      sil := hnext
      stream := by
        show t.stream ++ [ps[n]] = s.stream ++ ps.take (n + 1)
        rw [h.stream, List.append_assoc, List.take_append_getElem hn] }

end Line

/-- Any event that keeps the hazard rule, and that is no turn of the encoder after the last pair (R197). -/
theorem State.InLineOf.step {s t : State} {ps : List Pair} {n row : Nat} {e : Input} {rest : List Input}
    (h : s.InLineOf ps n (e :: rest) t) (hr : s.lineIndex = some row) (he : e.keepsHazardRule row = true)
    (hturn : ∀ a, e = .encoder a → n < ps.length) :
    ∃ u, step t = .next u ∧ s.InLineOf ps (n + acceptsIn [e]) rest u := by
  have ht : s.InLineOf ps n rest { t with inputs := rest } := { h with inputs := rfl }
  rw [step_cons h.inputs]
  cases e with
  | command w =>
    rw [takeEvent, serve]
    cases hd : decode w with
    | command i =>
      refine ht.exec hr ?_
      rintro r c v rfl
      simpa [Input.keepsHazardRule, hd] using he
    | illegal why => exact ⟨_, rfl, ht.respond ..⟩
  | encoder a =>
    refine ⟨_, rfl, ht.encoderStep (hturn a rfl) ?_⟩
    rintro rfl
    simp [Input.keepsHazardRule] at he
  | getRowAmong r writes =>
    have hothers : ∀ w ∈ writes, w.row.toNat ≠ row := by simpa [Input.keepsHazardRule] using he
    exact ⟨_, rfl, State.getRowAmong_keeps r writes ht (fun _ _ _ _ hv => hv.respond ..)
      fun _ w hw _ hx hv => hv.write w.value hr hx (hothers w hw)⟩
  | setup v => exact ⟨_, rfl, { ht with }⟩
  | reset => simp [Input.keepsHazardRule] at he

theorem acceptsIn_cons (e : Input) (es : List Input) : acceptsIn (e :: es) = acceptsIn [e] + acceptsIn es :=
  List.countP_append (l₁ := [e])

/-- Events that keep the hazard rule, with every turn of the encoder before the last pair is accepted (R197). -/
theorem State.InLineOf.steps {s : State} {ps : List Pair} {row : Nat} {rest : List Input} (hr : s.lineIndex = some row) :
    ∀ (es : List Input) {n : Nat} {t : State}, s.InLineOf ps n (es ++ rest) t →
      (∀ e ∈ es, e.keepsHazardRule row = true) →
      (∀ pre a post, es = pre ++ .encoder a :: post → n + acceptsIn pre < ps.length) →
      ∃ u, stepsFrom es.length t = .next u ∧ s.InLineOf ps (n + acceptsIn es) rest u
  | [], _, t, h, _, _ => ⟨t, rfl, h⟩
  | e :: es, n, t, h, hkeeps, hturns => by
    obtain ⟨he, hes⟩ := List.forall_mem_cons.1 hkeeps
    obtain ⟨u, hu, hline⟩ := h.step hr he fun a ha => hturns [] a es (by rw [ha]; rfl)
    obtain ⟨v, hv, hend⟩ := State.InLineOf.steps hr es hline hes fun pre a post hpre => by
      rw [Nat.add_assoc, ← acceptsIn_cons]
      exact hturns (e :: pre) a post (by rw [hpre]; rfl)
    refine ⟨v, (stepsFrom_succ _ hu).trans hv, ?_⟩
    rwa [acceptsIn_cons, ← Nat.add_assoc]

/-- Settles O46: the line start is in its scanline with no pair accepted, and each event keeps the pairs to those it gives. -/
theorem hazardFreeScanlineCarriesItsRow : Obligations.HazardFreeScanlineCarriesItsRow := by
  intro s row es rest h hl ha hsil _ hr hkeeps hturns hin
  obtain ⟨ps, hp⟩ := h.produce_of_running hl
  obtain ⟨hlen, -⟩ := State.produce_eq_some hp
  have hstart : s.InLineOf ps 0 (es ++ rest) s := ⟨hl, ha, rfl, rfl, hp, by simp [hsil], by simp, hin⟩
  obtain ⟨t, ht, hend⟩ := hstart.steps hr es hkeeps (by simpa [hlen] using hturns)
  rw [Nat.zero_add] at hend
  exact ⟨ps, t, hp, ht, hend.stream, hend.sil, hend.inputs, hend.running, hend.active, hend.scan⟩

end Sys2Proof.Machine
end

section
/-! PROOFS. The port: words and the opcode table (spec/30_encoding.md R67, R68), register numbers (spec/10_state.md R31), the
events of the total order (spec/20_memory.md R51), and the invariant at reset and after a step (R34). -/

namespace Sys2Proof.Machine

/-! ## The invariant -/

/-- Settles O57: of each event in turn, its effect keeps the invariant. -/
theorem stepKeepsTheInvariant : Obligations.StepKeepsTheInvariant := fun _ _ => State.Inv.of_step

/-- Settles O56: the reset values meet the invariant under any configuration, so under the reset one. -/
theorem resetMeetsTheInvariant : Obligations.ResetMeetsTheInvariant := State.reset_inv .reset

/-! ## Words and commands -/

/-- Settles O1: the fields joined are the fields read back. -/
theorem decodeOfEncodeIsTheCommand : Obligations.DecodeOfEncodeIsTheCommand := decode_encode

/-- Settles O2: the branch the decoder takes fixes every field of the word. -/
theorem legalWordIsItsCommandsEncoding : Obligations.LegalWordIsItsCommandsEncoding := fun _ _ => encode_of_decode

/-! ## The opcode table -/

/-- A row selects a word field by field (R67). -/
theorem selects_iff_fields (r : OpcodeRow) (w : CommandWord) :
    r.selects w = true ↔
      opField w &&& opField r.maskBits = opField r.matchBits ∧
      highField w &&& highField r.maskBits = highField r.matchBits ∧
      midField w &&& midField r.maskBits = midField r.matchBits ∧
      lowField w &&& lowField r.maskBits = lowField r.matchBits := by
  rw [OpcodeRow.selects, beq_iff_eq]
  constructor
  · intro h
    rw [← h]
    simp [opField, highField, midField, lowField, BitVec.extractLsb'_and]
  · rintro ⟨hop, hhigh, hmid, hlow⟩
    rw [← join_of_fields w, ← join_of_fields r.maskBits, BitVec.and_append, BitVec.and_append, BitVec.and_append, hop, hhigh,
      hmid, hlow, join_of_fields]

/-- Every row's mask covers the opcode, so the word has the row's opcode. -/
theorem opField_of_selects {r : OpcodeRow} {w : CommandWord} (hr : r ∈ opcodeTable) (h : r.selects w = true) :
    opField w = opField r.matchBits := by
  have hmask : ∀ q ∈ opcodeTable, opField q.maskBits = 0xFF#8 := by decide
  obtain ⟨hop, -⟩ := (selects_iff_fields r w).1 h
  rwa [hmask r hr, show 0xFF#8 = BitVec.allOnes 8 from rfl, BitVec.and_allOnes] at hop

/-- No two rows have one opcode. -/
theorem opcodeTable_opField_inj :
    ∀ r ∈ opcodeTable, ∀ q ∈ opcodeTable, opField r.matchBits = opField q.matchBits → r = q := by decide

theorem row_unique {w : CommandWord} {r q : OpcodeRow} (hr : r ∈ opcodeTable) (hq : q ∈ opcodeTable)
    (hrw : r.selects w = true) (hqw : q.selects w = true) : r = q :=
  opcodeTable_opField_inj r hr q hq ((opField_of_selects hr hrw).symm.trans (opField_of_selects hq hqw))

/-- Each command's word lies in the row of its mnemonic. -/
theorem encode_has_row (i : Instr) : ∃ r ∈ opcodeTable, r.mnemonic = i.mnemonic ∧ r.selects (encode i) = true := by
  cases i with
  | init => exact Laws.EncodesItsRow.init
  | close => exact Laws.EncodesItsRow.close
  | pumpOnce => exact Laws.EncodesItsRow.pumpOnce
  | run => exact Laws.EncodesItsRow.run
  | stop => exact Laws.EncodesItsRow.stop
  | wrReg reg data => exact Laws.EncodesItsRow.wrReg reg data
  | rdReg reg => exact Laws.EncodesItsRow.rdReg reg
  | setPixel row col value => exact Laws.EncodesItsRow.setPixel row col value
  | getRow row => exact Laws.EncodesItsRow.getRow row

theorem eq_of_and_full {n : Nat} {x m y : BitVec n} (hm : m = BitVec.allOnes n) (h : x &&& m = y) : x = y := by
  rwa [hm, BitVec.and_allOnes] at h

/-- A mask of all bits selects one word. -/
theorem matchBits_of_full {r : OpcodeRow} {w : CommandWord} (hm : r.maskBits = BitVec.allOnes 64)
    (h : r.selects w = true) : r.matchBits = w :=
  (eq_of_and_full hm (beq_iff_eq.1 h)).symm

/-- A word in a row of the table is the word of a command: the mask leaves free its operands alone. -/
theorem encode_of_selects {w : CommandWord} {r : OpcodeRow} (hr : r ∈ opcodeTable) (h : r.selects w = true) :
    ∃ i, encode i = w := by
  have hop := opField_of_selects hr h
  obtain ⟨-, hhigh, hmid, hlow⟩ := (selects_iff_fields r w).1 h
  simp only [opcodeTable, List.mem_cons, List.not_mem_nil, or_false] at hr
  obtain rfl | rfl | rfl | rfl | rfl | rfl | rfl | rfl | rfl := hr
  · exact ⟨.init, matchBits_of_full rfl h⟩
  · exact ⟨.close, matchBits_of_full rfl h⟩
  · exact ⟨.pumpOnce, matchBits_of_full rfl h⟩
  · exact ⟨.run, matchBits_of_full rfl h⟩
  · exact ⟨.stop, matchBits_of_full rfl h⟩
  · exact ⟨.wrReg _ _, (word_eq_of_fields hop rfl (eq_of_and_full rfl hmid) rfl).symm⟩
  · exact ⟨.rdReg _, (word_eq_of_fields hop rfl (eq_of_and_full rfl hmid) (eq_of_and_full rfl hlow)).symm⟩
  · exact ⟨.setPixel _ _ _, (word_eq_of_fields hop rfl rfl rfl).symm⟩
  · exact ⟨.getRow _, (word_eq_of_fields hop (eq_of_and_full rfl hhigh) rfl (eq_of_and_full rfl hlow)).symm⟩

/-- Settles O3: a command's word has the row of its mnemonic, a row's word is a command's, and the opcode tells the row. -/
theorem decoderAgreesWithOpcodeTable : Obligations.DecoderAgreesWithOpcodeTable := by
  refine ⟨fun w => ⟨?_, ?_⟩, fun w i r hd hr hsel => ?_, fun w r q hr hq => row_unique hr hq⟩
  · rintro ⟨i, hd⟩
    obtain ⟨r, hr, -, hsel⟩ := encode_has_row i
    exact ⟨r, hr, encode_of_decode hd ▸ hsel⟩
  · rintro ⟨r, hr, hsel⟩
    obtain ⟨i, rfl⟩ := encode_of_selects hr hsel
    exact ⟨i, decode_encode i⟩
  · obtain ⟨q, hq, hname, hq'⟩ := encode_has_row i
    rw [encode_of_decode hd] at hq'
    rw [row_unique hr hq hsel hq', hname]

/-! ## Register numbers -/

/-- Settles O4: the words are decoded and the numbers looked up; a number is unassigned when no register has it. -/
theorem wordsAndRegisterNumbersOfTheSpec : Obligations.WordsAndRegisterNumbersOfTheSpec := by
  refine ⟨by decide, by decide, by decide, by decide, by decide, by decide, by decide, by decide, by decide, by decide,
    by decide, by decide, by decide, by decide, fun r => by cases r <;> rfl, rfl, rfl, rfl, rfl, rfl, rfl, rfl, rfl, rfl,
    rfl, rfl, rfl, rfl, rfl, rfl, rfl, rfl, rfl, rfl, fun n => ?_⟩
  have hn := n.isLt
  rw [regOfNumber, List.find?_eq_none]
  simp only [RegName.all, List.forall_mem_cons, List.not_mem_nil, RegName.number, beq_iff_eq, ← BitVec.toNat_inj,
    BitVec.toNat_ofNat, IsEmpty.forall_iff, implies_true, and_true]
  omega

/-! ## Events -/

/-- The step that serves a command (R130). -/
theorem step_command {s : State} {i : Instr} {rest : List Input} (hin : s.inputs = .command (encode i) :: rest) :
    step s = exec i { s with inputs := rest } := by
  rw [step_cons hin, takeEvent, serve, decode_encode]

/-- Settles O5: the port serves the word it takes, and `withFetchWord` puts the word first. -/
theorem stepRunsTheDecodedCommand : Obligations.StepRunsTheDecodedCommand := by
  refine ⟨fun s w i rest hin hd => ?_, fun s w i hd => ?_⟩
  · obtain rfl := encode_of_decode hd
    exact step_command hin
  · have hmod : BitVec.ofNat 64 (w % 2 ^ 64) = encode i := by
      rw [encode_of_decode hd]
      exact BitVec.eq_of_toNat_eq (by simp)
    exact step_command (s := s.withFetchWord 64 w) (congrArg (Input.command · :: s.inputs) hmod)

/-- Settles O8: the reset event is the first to come, and hardware reset is its effect. -/
theorem hardwareResetFromAnyState : Obligations.HardwareResetFromAnyState := fun _ _ hin => step_cons hin

end Sys2Proof.Machine
end

section
/-! PROOFS. The lifecycle (spec/44_stream_and_lifecycle.md sections 1 to 5): WRREG, the boot by `init(config)`, CLOSE, the start
of PUMPONCE and RUN, and the table of refused commands. -/

namespace Sys2Proof.Machine

/-! ## WRREG -/

/-- WRREG may write the configuration registers alone (R32). -/
theorem ConfigRegs.write_eq_none_iff (c : ConfigRegs) (r : RegName) (v : Word) :
    c.write r v = none ↔ r.isConfig = false := by
  cases r <;> simp [ConfigRegs.write, RegName.isConfig]

theorem ConfigRegs.write_of_isConfig (c : ConfigRegs) {r : RegName} (h : r.isConfig = true) (v : Word) :
    ∃ cfg, c.write r v = some cfg := by
  rw [← Option.ne_none_iff_exists', Ne, ConfigRegs.write_eq_none_iff, h]
  decide

/-- A written configuration register reads as the value, and every other register as before (R31, R132). -/
theorem State.readReg_of_write {s : State} {r : RegName} {v : Word} {cfg : ConfigRegs} (h : s.cfg.write r v = some cfg)
    (q : RegName) : State.readReg { s with cfg } q = if q = r then v else s.readReg q := by
  cases r
  case' sampleRate | scanlineUs10 | syncTipUs10 | backPorchUs10 | activeUs10 | frontPorchUs10 | vsyncLines | hsyncLines =>
    obtain rfl := Option.some.inj h
    cases q <;> rfl
  all_goals simp [ConfigRegs.write] at h

theorem ConfigRegs.writeNumber_of_reg (c : ConfigRegs) {reg : Byte} {r : RegName} (h : regOfNumber reg = some r) (v : Word) :
    c.writeNumber reg v = c.write r v := by
  rw [ConfigRegs.writeNumber, h, Option.bind_some]

/-- A WRREG that is well-formed names a configuration register. -/
theorem ConfigRegs.writeNumber_of_wellFormed (c : ConfigRegs) {reg : Byte} {v : Word} (h : (Instr.wrReg reg v).WellFormed) :
    ∃ cfg, c.writeNumber reg v = some cfg := by
  obtain ⟨r, hr, hc⟩ := (Option.any_eq_true _ _).1 h
  rw [c.writeNumber_of_reg hr]
  exact c.write_of_isConfig hc v

section WrReg

variable {s : State} {reg : Byte} {data : Word} {cfg : ConfigRegs}

theorem exec_wrReg_closed (hl : s.life = .closed) (h : s.cfg.writeNumber reg data = some cfg) :
    exec (.wrReg reg data) s = .next (({ s with cfg }).answer (.wrReg reg data) .ok) := by
  simp [exec, execWrReg, h, hl]

theorem exec_wrReg_open (hl : s.life ≠ .closed) (h : s.cfg.writeNumber reg data = some cfg) :
    exec (.wrReg reg data) s = .next (s.answer (.wrReg reg data) .badState) := by
  cases hlife : s.life <;> simp_all [exec, execWrReg]

theorem exec_wrReg_unwritable (h : s.cfg.writeNumber reg data = none) :
    exec (.wrReg reg data) s = .next (s.answer (.wrReg reg data) .badCmd) := by
  simp [exec, execWrReg, h]

end WrReg

/-- Settles O9: the register number decides first, then the lifecycle, then the write. -/
theorem wrRegStoresOrIsRefused : Obligations.WrRegStoresOrIsRefused := by
  intro s reg data
  refine ⟨fun r hr hc hl => ?_, fun hreadOnly => exec_wrReg_unwritable ?_, fun r hr hc hl => ?_,
    decode_encode (.wrReg RegName.vsyncLines.number 2#32)⟩
  · obtain ⟨cfg, hcfg⟩ := s.cfg.write_of_isConfig hc data
    exact ⟨cfg, exec_wrReg_closed hl ((s.cfg.writeNumber_of_reg hr data).trans hcfg), State.readReg_of_write hcfg⟩
  · exact Option.bind_eq_none_iff.2 fun r hr => (s.cfg.write_eq_none_iff r data).2 (hreadOnly r hr)
  · obtain ⟨cfg, hcfg⟩ := s.cfg.write_of_isConfig hc data
    exact exec_wrReg_open hl ((s.cfg.writeNumber_of_reg hr data).trans hcfg)

/-! ## The boot by `init(config)` -/

/-- The numbers and values of the eight WRREGs that carry a configuration (R75). -/
def ConfigRegs.settings (c : ConfigRegs) : List (Byte × Word) :=
  [(0x00#8, c.sampleRate), (0x01#8, c.scanlineUs10), (0x02#8, c.syncTipUs10), (0x03#8, c.backPorchUs10),
    (0x04#8, c.activeUs10), (0x05#8, c.frontPorchUs10), (0x06#8, c.vsyncLines), (0x07#8, c.hsyncLines)]

/-- The WRREG of a register number and a value. -/
def wrRegOf (w : Byte × Word) : Instr := .wrReg w.1 w.2

/-- The configuration after these WRREGs, where each may write. -/
def ConfigRegs.writeAll (c : ConfigRegs) (ws : List (Byte × Word)) : Option ConfigRegs :=
  ws.foldlM (fun c w => c.writeNumber w.1 w.2) c

theorem configCommands_eq_map (c : ConfigRegs) : configCommands c = c.settings.map wrRegOf := rfl

/-- The eight WRREGs leave nothing of the configuration before them. -/
theorem ConfigRegs.writeAll_settings (old c : ConfigRegs) : old.writeAll c.settings = some c := rfl

/-- WRREGs in a closed block write in turn, each answered OK (R132). -/
theorem stepsFrom_wrRegs (ws : List (Byte × Word)) {s : State} {cfg : ConfigRegs} {rest : List Input}
    (hl : s.life = .closed) (hw : s.cfg.writeAll ws = some cfg)
    (hin : s.inputs = asEvents (ws.map wrRegOf) ++ rest) :
    stepsFrom ws.length s = .next { s with
      cfg, inputs := rest, responses := s.responses ++ (ws.map wrRegOf).map fun i => ⟨some i, 0x00#8, .empty⟩ } := by
  induction ws generalizing s with
  | nil =>
    obtain rfl : s.cfg = cfg := Option.some.inj hw
    obtain rfl : s.inputs = rest := hin
    simp [stepsFrom]
  | cons w ws ih =>
    obtain ⟨next, hnext, hlater⟩ := Option.bind_eq_some_iff.1 hw
    have hstep := (step_command (i := wrRegOf w) hin).trans (exec_wrReg_closed hl hnext)
    refine (stepsFrom_succ _ hstep).trans ?_
    refine (ih (s := { s with cfg := next, inputs := _, responses := _ }) hl hlater rfl).trans ?_
    simp [wrRegOf, Status.code]

/-- Settles O18: eight writes leave the configuration, with which INIT's checks pass. -/
theorem initCallBootsTheBlock : Obligations.InitCallBootsTheBlock := by
  intro s c t rest hl hlines ht hstore hsink hin
  obtain ⟨hv, hvmax, hh⟩ := c.linesLegal_iff.1 hlines
  rw [initCall, configCommands_eq_map, asEvents, List.map_append, List.append_assoc] at hin
  obtain ⟨-, -, hpass⟩ := State.initCheck_sink (s := { s with cfg := c }) hv hvmax hh ht hstore
  rw [stepsFrom_add 8 1 (stepsFrom_wrRegs c.settings hl (s.cfg.writeAll_settings c) hin)]
  refine (stepsFrom_succ 0 ((step_command rfl).trans (exec_init_pass (t := t) ?_ ?_))).trans ?_
  · exact hl
  · exact hpass hsink
  · rw [initCall, configCommands_eq_map, List.map_append, ← List.append_assoc]
    rfl

/-! ## CLOSE -/

theorem exec_close_idle {s : State} (h : s.life ≠ .running) : exec .close s = .next (s.tornDown.answer .close .ok) := by
  cases hl : s.life <;> simp_all [exec, execClose]

theorem exec_close_running {s : State} (h : s.life = .running) : exec .close s = .next (s.answer .close .badState) := by
  simp [exec, execClose, h]

/-- A closed block already holds what CLOSE leaves (R147). -/
theorem State.Inv.tornDown_of_closed {s : State} (h : s.Inv) (hl : s.life = .closed) : s.tornDown = s := by
  obtain ⟨htiming, hscan, hsil, hstop, hfb⟩ := h.closed_at_reset_values hl
  obtain ⟨hline, hmode⟩ := h.idle_unless_running (by simp [hl])
  have halloc := h.closed_iff_no_store.1 hl
  have herr := h.err_eq_zero (by simp [hl])
  cases s
  simp_all [State.tornDown, State.release]

/-- Settles O19: what CLOSE writes are the reset values, which a closed block has already. -/
theorem closeTearsDown : Obligations.CloseTearsDown := by
  refine ⟨fun s hl => exec_close_idle hl, fun s hl => exec_close_running hl, fun s h hl => ?_⟩
  rw [exec_close_idle (by simp [hl]), h.tornDown_of_closed hl]
  rfl

/-! ## PUMPONCE and RUN -/

theorem exec_pumpOnce_ready {s : State} (h : s.life = .ready) :
    exec .pumpOnce s = .next { s with life := .running, runMode := false } := by
  simp [exec, execPumpOnce, h]

theorem exec_run_ready {s : State} (h : s.life = .ready) :
    exec .run s = .next { s with life := .running, runMode := true } := by
  simp [exec, execRun, h]

theorem exec_pumpOnce_halted {s : State} (h : s.life = .halted) :
    exec .pumpOnce s = .next (s.respond (some .pumpOnce) s.err .empty) := by
  simp [exec, execPumpOnce, h]

theorem exec_run_halted {s : State} (h : s.life = .halted) :
    exec .run s = .next (s.respond (some .run) s.err .empty) := by
  simp [exec, execRun, h]

/-- Settles O26: the two commands of R149 in the two states that do not refuse them. -/
theorem pumpOnceAndRunStartTheEncoder : Obligations.PumpOnceAndRunStartTheEncoder := fun _ =>
  ⟨fun hl => ⟨exec_pumpOnce_ready hl, exec_run_ready hl⟩, fun hl => ⟨exec_pumpOnce_halted hl, exec_run_halted hl⟩⟩

/-! ## The table of refused commands -/

/-- A check of INIT fails with an InitError (R135, R170). -/
theorem State.initCheck_error {s : State} {e : Status} (h : s.initCheck = .error e) : e.isInitError = true := by
  simp only [State.initCheck] at h
  split_ifs at h
  · split at h
    · cases h; rfl
    · split_ifs at h
      · cases h; rfl
      · split at h <;> cases h <;> rfl
  · cases h; rfl

/-- Everything an INIT in CLOSED can do: answer an InitError, or open the block with OK. -/
theorem exec_init_closed {s : State} (hl : s.life = .closed) :
    (∃ e : Status, e.isInitError = true ∧ exec .init s = .next (s.answer .init e)) ∨
    ∃ t, s.initCheck = .pass t ∧ exec .init s = .next ((s.opened t).answer .init .ok) := by
  cases hc : s.initCheck with
  | error e => exact .inl ⟨e, State.initCheck_error hc, exec_init_error hl hc⟩
  | pass t => exact .inr ⟨t, rfl, exec_init_pass hl hc⟩

/-- A refused command is answered BADSTATE, and that is all (R131). -/
theorem exec_refused {i : Instr} {s : State} (hw : i.WellFormed) (h : refusedIn i s.life = true) :
    exec i s = .next (s.answer i .badState) := by
  cases i with
  | wrReg reg data =>
    obtain ⟨cfg, hcfg⟩ := s.cfg.writeNumber_of_wellFormed hw
    exact exec_wrReg_open (fun hl => by simp [hl, refusedIn] at h) hcfg
  | rdReg reg => simp [refusedIn] at h
  | init => cases hl : s.life <;> simp_all [refusedIn, exec, execInit]
  | close => cases hl : s.life <;> simp_all [refusedIn, exec, execClose]
  | pumpOnce => cases hl : s.life <;> simp_all [refusedIn, exec, execPumpOnce]
  | run => cases hl : s.life <;> simp_all [refusedIn, exec, execRun]
  | stop => cases hl : s.life <;> simp_all [refusedIn, exec, execStop]
  | setPixel row col value => cases hl : s.life <;> simp_all [refusedIn, exec, execSetPixel, State.setPixel]
  | getRow row => cases hl : s.life <;> simp_all [refusedIn, exec, execGetRow, State.getRow]

/-- Two states that have just answered alike gave one status. -/
theorem State.respond_status_inj {s t : State} {c d : Option Instr} {x y : Byte} {p q : Payload}
    (h : s.respond c x p = t.respond d y q) : x = y := by
  have hlast := congrArg (fun u => (State.responses u).getLast?) h
  simp only [State.respond_responses, List.getLast?_concat, Option.some.injEq, Response.mk.injEq] at hlast
  exact hlast.2.1

/-- A command answered with a status other than BADSTATE is not refused. -/
theorem ne_refusal {r : Result} {s t : State} {i : Instr} {c : Option Instr} {x : Byte} {p : Payload}
    (h : r = .next (t.respond c x p)) (hx : x ≠ Status.badState.code) : r ≠ .next (s.answer i .badState) := by
  rintro rfl
  exact hx (State.respond_status_inj (Host.Outcome.next.inj h)).symm

/-- The start of the encoder is not a refusal: it writes LIFE. -/
theorem ne_refusal_of_start {r : Result} {s : State} {i : Instr} {runMode : Bool} (hl : s.life = .ready)
    (h : r = .next { s with life := .running, runMode }) : r ≠ .next (s.answer i .badState) := by
  rintro rfl
  simpa [hl] using congrArg State.life (Host.Outcome.next.inj h)

/-- A latched error is not BADSTATE (R26). -/
theorem State.Inv.err_ne_badState {s : State} (h : s.Inv) (hl : s.life = .halted) : s.err ≠ Status.badState.code := by
  rcases h.err_code (h.err_iff_halted.2 hl) with he | he <;> rw [he] <;> decide

/-- In the cells of R131 that do not say "refused", BADSTATE is not the answer. -/
theorem exec_accepted {i : Instr} {s : State} (hs : s.Inv) (hw : i.WellFormed) (h : refusedIn i s.life = false) :
    exec i s ≠ .next (s.answer i .badState) := by
  cases i with
  | init =>
    have hl : s.life = .closed := by cases hl : s.life <;> simp_all [refusedIn]
    rcases exec_init_closed hl with ⟨e, he, hexec⟩ | ⟨t, -, hexec⟩
    · exact ne_refusal hexec (by cases e <;> revert he <;> decide)
    · exact ne_refusal hexec (by decide)
  | close => exact ne_refusal (exec_close_idle fun hl => by simp [hl, refusedIn] at h) (by decide)
  | pumpOnce =>
    cases hl : s.life with
    | closed => simp [hl, refusedIn] at h
    | running => simp [hl, refusedIn] at h
    | ready => exact ne_refusal_of_start hl (exec_pumpOnce_ready hl)
    | halted => exact ne_refusal (exec_pumpOnce_halted hl) (hs.err_ne_badState hl)
  | run =>
    cases hl : s.life with
    | closed => simp [hl, refusedIn] at h
    | running => simp [hl, refusedIn] at h
    | ready => exact ne_refusal_of_start hl (exec_run_ready hl)
    | halted => exact ne_refusal (exec_run_halted hl) (hs.err_ne_badState hl)
  | stop => exact ne_refusal (exec_stop_open fun hl => by simp [hl, refusedIn] at h) (by decide)
  | wrReg reg data =>
    have hl : s.life = .closed := by cases hl : s.life <;> simp_all [refusedIn]
    obtain ⟨cfg, hcfg⟩ := s.cfg.writeNumber_of_wellFormed hw
    exact ne_refusal (exec_wrReg_closed hl hcfg) (by decide)
  | rdReg reg =>
    obtain ⟨r, hr⟩ := Option.isSome_iff_exists.1 hw
    exact ne_refusal (exec_rdReg_assigned hr s) (by decide)
  | setPixel row col value =>
    have hl : s.life ≠ .closed := fun hl => by simp [hl, refusedIn] at h
    cases hx : s.elementExists row.toNat col.toNat
    · exact ne_refusal (congrArg Host.Outcome.next (State.setPixel_of_absent hl hx value)) (by decide)
    · exact ne_refusal (congrArg Host.Outcome.next (State.setPixel_of_exists hl hx value)) (by decide)
  | getRow row =>
    have hl : s.life ≠ .closed := fun hl => by simp [hl, refusedIn] at h
    have hexec : exec (.getRow row) s = .next (s.answerRow row (s.rowBytes row.toNat)) :=
      congrArg Host.Outcome.next (State.getRow_open hl row)
    cases hb : s.rowBytes row.toNat
    · exact ne_refusal (hexec.trans (by rw [hb]; rfl)) (x := Status.indexError.code) (by decide)
    · exact ne_refusal (hexec.trans (by rw [hb]; rfl)) (x := Status.ok.code) (by decide)

/-- Settles O20: a refused command answers BADSTATE, and an accepted one anything else. -/
theorem lifecycleTable : Obligations.LifecycleTable := by
  intro i s hs hw
  refine ⟨exec_refused hw, fun hexec => ?_⟩
  rw [← Bool.not_eq_false]
  exact fun h => exec_accepted hs hw h hexec

end Sys2Proof.Machine
end

section
/-! PROOFS. Who changes what: LIFE (spec/10_state.md R24), the responses (spec/30_encoding.md R65), the configuration, the timing
and the parameters (R11, R30, R87), and the error latch (R26, spec/60_exceptions.md R170, R179). -/

namespace Sys2Proof.Machine

/-! ## Responses -/

/-- Settles O22: of the commands only a PUMPONCE or RUN in READY gives no response, and a latched error is a code too. -/
theorem oneResponsePerCommand : Obligations.OneResponsePerCommand := by
  intro i s hs
  obtain ⟨t, ht, hcases⟩ := exec_cases i s
  refine ⟨t, ht, ?_⟩
  rcases hcases with ⟨st, p, rfl, hst⟩ | ⟨rfl, -, tm, -, rfl⟩ | ⟨rfl, -, rfl⟩ | ⟨rfl, hl, rfl⟩ | ⟨rfl, hl, rfl⟩ |
    ⟨rfl, -, rfl⟩ | ⟨reg, data, cfg, rfl, -, -, rfl⟩ | ⟨row, col, value, rfl, -, -, rfl⟩
  case inl =>
    refine .inl ⟨_, rfl, rfl, ?_⟩
    rcases hst with hst | ⟨hl, rfl⟩
    · exact hst
    · exact (hs.err_code (hs.err_iff_halted.2 hl)).elim (fun he => ⟨_, he⟩) fun he => ⟨_, he⟩
  case inr.inr.inr.inl => exact .inr ⟨.inl rfl, hl, rfl, rfl⟩
  case inr.inr.inr.inr.inl => exact .inr ⟨.inr rfl, hl, rfl, rfl⟩
  all_goals exact .inl ⟨_, rfl, rfl, .ok, rfl⟩

/-! ## LIFE -/

/-- A command leaves LIFE, or has one of the effects of R24. -/
theorem exec_life {i : Instr} {s t : State} (h : exec i s = .next t) :
    t.life = s.life ∨ (i = .init ∧ s.life = .closed ∧ t.life = .ready) ∨
      (i = .close ∧ s.life ≠ .running ∧ t.life = .closed) ∨
      ((i = .pumpOnce ∨ i = .run) ∧ s.life = .ready ∧ t.life = .running) := by
  obtain ⟨u, hu, hcases⟩ := exec_cases i s
  obtain rfl : u = t := Host.Outcome.next.inj (hu.symm.trans h)
  rcases hcases with ⟨st, p, rfl, -⟩ | ⟨hi, hl, tm, -, rfl⟩ | ⟨hi, hl, rfl⟩ | ⟨hi, hl, rfl⟩ | ⟨hi, hl, rfl⟩ | ⟨-, -, rfl⟩ |
    ⟨reg, data, cfg, -, -, -, rfl⟩ | ⟨row, col, value, -, -, -, rfl⟩
  case inr.inl => exact .inr (.inl ⟨hi, hl, rfl⟩)
  case inr.inr.inl => exact .inr (.inr (.inl ⟨hi, hl, rfl⟩))
  case inr.inr.inr.inl => exact .inr (.inr (.inr ⟨.inl hi, hl, rfl⟩))
  case inr.inr.inr.inr.inl => exact .inr (.inr (.inr ⟨.inr hi, hl, rfl⟩))
  all_goals exact .inl rfl

/-- A turn of the encoder leaves LIFE, ends a PUMPONCE with its line, ends a stopped RUN, or halts with a PumpError. -/
theorem State.encoderStep_life (s : State) (a : SinkAnswer) :
    (s.encoderStep a).life = s.life ∨ s.life = .running ∧
      (((s.encoderStep a).life = .ready ∧ s.runMode = false ∧ s.lineActive = true ∧ s.timing.spl.toNat ≤ s.sil.toNat) ∨
       ((s.encoderStep a).life = .ready ∧ s.runMode = true ∧ s.lineActive = false ∧ s.stopReq = true) ∨
       ∃ e : Status, e.isPumpError = true ∧ s.encoderStep a = s.halt e) := by
  rcases s.encoderStep_cases a with ⟨-, heq⟩ | ⟨hl, ha, hs, ⟨-, heq⟩ | ⟨p, -, ⟨-, heq⟩ | ⟨-, heq⟩ | ⟨-, heq⟩⟩⟩ |
    ⟨hl, ha, hs, heq⟩ | ⟨hl, ha, hr, hstop, heq⟩ | ⟨hl, -, -, ⟨-, heq⟩ | ⟨-, heq⟩⟩ <;> rw [heq]
  · exact .inl rfl
  · exact .inr ⟨hl, .inr (.inr ⟨_, rfl, rfl⟩)⟩
  · exact .inl rfl
  · exact .inr ⟨hl, .inr (.inr ⟨_, rfl, rfl⟩)⟩
  · exact .inl rfl
  · rcases s.lineEnd_eq with ⟨-, hend⟩ | ⟨hr, hend⟩
    · exact .inl (by rw [hend])
    · exact .inr ⟨hl, .inl ⟨by rw [hend]; rfl, hr, ha, hs⟩⟩
  · exact .inr ⟨hl, .inr (.inl ⟨rfl, hr, ha, hstop⟩)⟩
  · exact .inr ⟨hl, .inr (.inr ⟨_, rfl, rfl⟩)⟩
  · exact .inl rfl

/-- Settles O21: LIFE is written by INIT, CLOSE, PUMPONCE and RUN, by the three ends of the encoder's work, and by reset. -/
theorem lifeTransitions : Obligations.LifeTransitions := by
  intro s t hstep hne
  rcases step_cases hstep with ⟨-, rfl⟩ | ⟨e, rest, hin, hcases⟩
  · exact absurd rfl hne
  refine ⟨e, rest, hin, ?_⟩
  rcases hcases with ⟨w, i, rfl, hd, hexec⟩ | ⟨w, why, -, -, rfl⟩ | ⟨a, rfl, rfl⟩ | ⟨row, writes, -, rfl⟩ | ⟨v, -, rfl⟩ |
    ⟨rfl, rfl⟩
  · obtain rfl := encode_of_decode hd
    rcases exec_life hexec with heq | ⟨rfl, hl, ht⟩ | ⟨rfl, hl, ht⟩ | ⟨hi, hl, ht⟩
    · exact absurd heq hne
    · exact .inl ⟨hl, ht, rfl⟩
    · have hopen : s.life = .ready ∨ s.life = .halted := by cases hlife : s.life <;> simp_all
      exact .inr (.inr (.inr (.inr (.inr (.inl ⟨hopen, ht, rfl⟩)))))
    · exact .inr (.inl ⟨hl, ht, hi.imp (by rintro rfl; rfl) (by rintro rfl; rfl)⟩)
  · exact absurd rfl hne
  · rcases State.encoderStep_life { s with inputs := rest } a with heq |
      ⟨hl, ⟨ht, hr, ha, hs⟩ | ⟨ht, hr, ha, hs⟩ | ⟨e, he, ht⟩⟩
    · exact absurd heq hne
    · exact .inr (.inr (.inl ⟨hl, ht, hr, ha, hs, a, rfl⟩))
    · exact .inr (.inr (.inr (.inl ⟨hl, ht, hr, ha, hs, a, rfl⟩)))
    · rw [ht]
      have hcode : e.code = 0x06#8 ∨ e.code = 0x07#8 := by cases e <;> revert he <;> decide
      exact .inr (.inr (.inr (.inr (.inl ⟨hl, rfl, hcode, a, rfl⟩))))
  · exact absurd (State.getRowAmong_life _ row writes) hne
  · exact absurd rfl hne
  · exact .inr (.inr (.inr (.inr (.inr (.inr ⟨rfl, rfl⟩)))))

/-! ## Errors -/

/-- A step into HALTED is a turn of a RUNNING encoder that halts with a PumpError (R170, R176). -/
theorem step_halts {s t : State} (hstep : step s = .next t) (hl : s.life ≠ .halted) (ht : t.life = .halted) :
    s.life = .running ∧ ∃ a rest, ∃ e : Status, s.inputs = .encoder a :: rest ∧ e.isPumpError = true ∧
      t = State.halt { s with inputs := rest } e := by
  obtain ⟨e, rest, hin, hcases⟩ := lifeTransitions s t hstep (by rw [ht]; exact hl.symm)
  obtain ⟨hrunning, -, a, rfl⟩ : s.life = .running ∧ (t.err = 0x06#8 ∨ t.err = 0x07#8) ∧ ∃ a, e = .encoder a := by
    simpa [ht] using hcases
  obtain rfl : State.encoderStep { s with inputs := rest } a = t :=
    Host.Outcome.next.inj ((step_cons hin).symm.trans hstep)
  rcases State.encoderStep_life { s with inputs := rest } a with heq | ⟨-, ⟨hready, -⟩ | ⟨hready, -⟩ | ⟨e, he, hhalt⟩⟩
  · exact absurd (heq.symm.trans ht) hl
  · simp [hready] at ht
  · simp [hready] at ht
  · exact ⟨hrunning, a, rest, e, hin, he, hhalt⟩

/-- Settles O53: INIT answers the outcome of its checks, and a halt the error it latches. -/
theorem errorTypesOfInitAndPump : Obligations.ErrorTypesOfInitAndPump := by
  refine ⟨fun s hl => ?_, fun s t hstep hl ht => ?_⟩
  · rcases exec_init_closed hl with ⟨e, he, hexec⟩ | ⟨tm, -, hexec⟩
    · exact ⟨_, e, hexec, rfl, .inr ⟨he, hl⟩⟩
    · exact ⟨_, .ok, hexec, rfl, .inl ⟨rfl, rfl⟩⟩
  · obtain ⟨-, a, rest, e, -, he, rfl⟩ := step_halts hstep hl ht
    exact ⟨e, he, rfl, rfl⟩

/-- Settles O54: a nonzero latch means HALTED, where no event but CLOSE and reset writes it. -/
theorem errorLatchIsSticky : Obligations.ErrorLatchIsSticky := by
  intro s t hs hstep herr
  have hl := hs.err_iff_halted.1 herr
  rcases step_cases hstep with ⟨-, rfl⟩ | ⟨e, rest, hin, hcases⟩
  · exact .inl ⟨rfl, hl⟩
  rcases hcases with ⟨w, i, rfl, hd, hexec⟩ | ⟨w, why, -, -, rfl⟩ | ⟨a, rfl, rfl⟩ | ⟨row, writes, -, rfl⟩ | ⟨v, -, rfl⟩ |
    ⟨rfl, rfl⟩
  · obtain rfl := encode_of_decode hd
    obtain ⟨u, hu, hcases⟩ := exec_cases i { s with inputs := rest }
    obtain rfl : u = t := Host.Outcome.next.inj (hu.symm.trans hexec)
    rcases hcases with ⟨st, p, rfl, -⟩ | ⟨-, hc, -⟩ | ⟨rfl, -, rfl⟩ | ⟨-, hc, -⟩ | ⟨-, hc, -⟩ | ⟨-, -, rfl⟩ |
      ⟨reg, data, cfg, -, hc, -⟩ | ⟨row, col, value, -, -, -, rfl⟩
    · exact .inl ⟨rfl, hl⟩
    · simp [hl] at hc
    · exact .inr ⟨rfl, rfl, .inl ⟨rest, hin⟩⟩
    · simp [hl] at hc
    · simp [hl] at hc
    · exact .inl ⟨rfl, hl⟩
    · simp [hl] at hc
    · exact .inl ⟨rfl, hl⟩
  · exact .inl ⟨rfl, hl⟩
  · have hturn : State.encoderStep { s with inputs := rest } a = { s with inputs := rest } := by
      simp [State.encoderStep, hl]
    exact .inl (by rw [hturn]; exact ⟨rfl, hl⟩)
  · exact .inl ⟨State.getRowAmong_err _ row writes, (State.getRowAmong_life _ row writes).trans hl⟩
  · exact .inl ⟨rfl, hl⟩
  · exact .inr ⟨rfl, rfl, .inr ⟨rest, hin⟩⟩

/-! ## Configuration, timing and parameters -/

/-- A command writes no parameter; the configuration is written by WRREG in CLOSED, the timing by INIT and CLOSE. -/
theorem exec_configuration {i : Instr} {s t : State} (h : exec i s = .next t) :
    t.params = s.params ∧
    (t.cfg = s.cfg ∨ s.life = .closed ∧ ∃ reg data, i = .wrReg reg data) ∧
    (t.timing = s.timing ∨ (i = .init ∧ s.life = .closed ∧ t.life = .ready) ∨ (i = .close ∧ t.life = .closed)) := by
  obtain ⟨u, hu, hcases⟩ := exec_cases i s
  obtain rfl : u = t := Host.Outcome.next.inj (hu.symm.trans h)
  rcases hcases with ⟨st, p, rfl, -⟩ | ⟨hi, hl, tm, -, rfl⟩ | ⟨hi, -, rfl⟩ | ⟨-, -, rfl⟩ | ⟨-, -, rfl⟩ | ⟨-, -, rfl⟩ |
    ⟨reg, data, cfg, hi, hl, -, rfl⟩ | ⟨row, col, value, -, -, -, rfl⟩
  case inr.inl => exact ⟨rfl, .inl rfl, .inr (.inl ⟨hi, hl, rfl⟩)⟩
  case inr.inr.inl => exact ⟨rfl, .inl rfl, .inr (.inr ⟨hi, rfl⟩)⟩
  case inr.inr.inr.inr.inr.inr.inl => exact ⟨rfl, .inr ⟨hl, reg, data, hi⟩, .inl rfl⟩
  all_goals exact ⟨rfl, .inl rfl, .inl rfl⟩

/-- The encoder writes neither parameters nor configuration nor timing nor the framebuffer (R87, R96). -/
theorem State.encoderStep_frame (s : State) (a : SinkAnswer) :
    (s.encoderStep a).params = s.params ∧ (s.encoderStep a).cfg = s.cfg ∧ (s.encoderStep a).timing = s.timing ∧
      (s.encoderStep a).fb = s.fb := by
  rcases s.encoderStep_cases a with ⟨-, heq⟩ | ⟨-, -, -, ⟨-, heq⟩ | ⟨p, -, ⟨-, heq⟩ | ⟨-, heq⟩ | ⟨-, heq⟩⟩⟩ |
    ⟨-, -, -, heq⟩ | ⟨-, -, -, -, heq⟩ | ⟨-, -, -, ⟨-, heq⟩ | ⟨-, heq⟩⟩ <;> rw [heq]
  case inr.inr.inl =>
    rcases s.lineEnd_eq with ⟨-, hend⟩ | ⟨-, hend⟩ <;> rw [hend]
    · exact ⟨rfl, rfl, rfl, rfl⟩
    · exact ⟨rfl, rfl, rfl, rfl⟩
  all_goals exact ⟨rfl, rfl, rfl, rfl⟩

/-- Settles O50: of the events only WRREG, INIT, CLOSE and reset reach these registers. -/
theorem whoWritesConfigurationAndTiming : Obligations.WhoWritesConfigurationAndTiming := by
  intro s t hstep
  rcases step_cases hstep with ⟨-, rfl⟩ | ⟨e, rest, hin, hcases⟩
  · exact ⟨rfl, .inl rfl, .inl rfl⟩
  rcases hcases with ⟨w, i, rfl, hd, hexec⟩ | ⟨w, why, -, -, rfl⟩ | ⟨a, rfl, rfl⟩ | ⟨row, writes, -, rfl⟩ | ⟨v, -, rfl⟩ |
    ⟨rfl, rfl⟩
  · obtain rfl := encode_of_decode hd
    obtain ⟨hparams, hcfg, htiming⟩ := exec_configuration hexec
    refine ⟨hparams, hcfg.imp_right ?_, htiming.imp_right (Or.imp ?_ ?_)⟩
    · rintro ⟨hl, reg, data, rfl⟩
      exact .inl ⟨hl, reg, data, rest, hin⟩
    · rintro ⟨rfl, hl, ht⟩
      exact ⟨hl, ht, rest, hin⟩
    · rintro ⟨rfl, ht⟩
      exact .inl ⟨ht, rest, hin⟩
  · exact ⟨rfl, .inl rfl, .inl rfl⟩
  · obtain ⟨hparams, hcfg, htiming, -⟩ := State.encoderStep_frame { s with inputs := rest } a
    exact ⟨hparams, .inl hcfg, .inl htiming⟩
  · exact ⟨State.getRowAmong_params _ row writes, .inl (State.getRowAmong_cfg _ row writes),
      .inl (State.getRowAmong_timing _ row writes)⟩
  · exact ⟨rfl, .inl rfl, .inl rfl⟩
  · exact ⟨rfl, .inr (.inr ⟨rest, hin⟩), .inr (.inr (.inr ⟨rest, hin⟩))⟩

end Sys2Proof.Machine
end

section
/-! PROOFS. Picture access (spec/44_stream_and_lifecycle.md section 4): GETROW and SETPIXEL (R139, R140), a GETROW with SETPIXELs
between its reads (spec/20_memory.md R49, spec/70_reset_and_hazards.md R199), and who writes the store
(spec/41_framebuffer.md R96). -/

namespace Sys2Proof.Machine

/-! ## GETROW and SETPIXEL -/

/-- GETROW of a row that exists answers its bytes (R92, R140). -/
theorem State.getRow_of_bytes {s : State} (hl : s.life ≠ .closed) {row : BitVec 16} {bs : List Byte}
    (h : s.rowBytes row.toNat = some bs) :
    s.getRow row = s.respond (some (.getRow row)) Status.ok.code (.bytes bs) := by
  rw [State.getRow_open hl, h, State.answerRow]

/-- Settles O24: the row is its elements in column order. -/
theorem getRowReturnsTheRow : Obligations.GetRowReturnsTheRow := by
  intro s row hl ha hrow
  have hb := State.rowBytes_of_exists ha (Nat.lt_succ_of_le hrow)
  obtain ⟨-, -, hlen, hread⟩ := State.rowBytes_eq_some hb
  exact ⟨_, hlen, fun c hc => (hread c hc).symm, congrArg Host.Outcome.next (State.getRow_of_bytes hl hb)⟩

/-- SETPIXELs in turn add responses at the end. -/
theorem State.interveneAll_adds_responses (s : State) (writes : List Intervening) :
    ∃ more, (s.interveneAll writes).responses = s.responses ++ more :=
  State.interveneAll_keeps (P := fun t => ∃ more, t.responses = s.responses ++ more) writes ⟨[], (List.append_nil _).symm⟩
    (fun t c st p ⟨more, h⟩ => ⟨more ++ [⟨c, st, p⟩], by rw [State.respond_responses, h, List.append_assoc]⟩)
    fun _ _ _ _ _ h => h

/-- SETPIXELs to other elements leave an element as it is (R94). -/
theorem State.interveneAll_fbRead {s : State} {writes : List Intervening} {row col : Nat}
    (h : ∀ w ∈ writes, row = w.row.toNat → col ≠ w.col.toNat) :
    (s.interveneAll writes).fbRead row col = s.fbRead row col :=
  State.interveneAll_keeps (P := fun t => t.fbRead row col = s.fbRead row col) writes rfl (fun _ _ _ _ h => h)
    fun _ w hw _ hx ht => (State.fbRead_write_other w.value hx (h w hw)).trans ht

/-- Every column but the first is read after the SETPIXELs up to some point among them (R199). -/
theorem exists_split_at_column (writes : List Intervening) (next c : Nat) (hc : next ≤ c) :
    ∃ before after, writes = before ++ after ∧ next + (before.map Intervening.reads).sum ≤ c ∧
      ∀ w later, after = w :: later → c < next + (before.map Intervening.reads).sum + w.reads := by
  induction writes generalizing next with
  | nil => exact ⟨[], [], rfl, by simpa using hc, by simp⟩
  | cons w writes ih =>
    by_cases hw : c < next + w.reads
    · refine ⟨[], w :: writes, rfl, by simpa using hc, ?_⟩
      rintro v later heq
      obtain ⟨rfl, -⟩ := List.cons.inj heq
      simpa using hw
    · obtain ⟨before, after, rfl, hbefore, hafter⟩ := ih (next + w.reads) (by omega)
      refine ⟨w :: before, after, rfl, ?_, fun v later heq => ?_⟩
      · simp only [List.map_cons, List.sum_cons]
        omega
      · have := hafter v later heq
        simp only [List.map_cons, List.sum_cons]
        omega

/-- So is column 0, before them all: a GETROW makes its first read before any SETPIXEL accepted after it (R130). -/
theorem exists_split_at_read (writes : List Intervening) (c : Nat) :
    ∃ before after, writes = before ++ after ∧ (before ≠ [] → 1 + (before.map Intervening.reads).sum ≤ c) ∧
      ∀ w later, after = w :: later → c < 1 + (before.map Intervening.reads).sum + w.reads := by
  cases c with
  | zero => exact ⟨[], writes, rfl, fun hne => absurd rfl hne, fun w _ _ => by simp⟩
  | succ c =>
    obtain ⟨before, after, hw, hbefore, hafter⟩ := exists_split_at_column writes 1 (c + 1) (by omega)
    exact ⟨before, after, hw, fun _ => hbefore, hafter⟩

/-- Served with SETPIXELs to other elements between its reads, a GETROW has an element's value as it was. -/
theorem State.rowBytesAmong_untouched {s : State} {row col : Nat} {writes : List Intervening} (ha : s.fbAlloc = true)
    (hrow : row < 483) (hcol : col < s.timing.act.toNat) (h : ∀ w ∈ writes, row = w.row.toNat → col ≠ w.col.toNat) :
    ∃ bs, State.rowBytesAmong row writes s = some bs ∧ bs[col]? = s.fbRead row col := by
  obtain ⟨bs, hbs, -, hread⟩ := State.rowBytesAmong_spec hrow writes ha
  obtain ⟨before, after, hw, hbefore, hafter⟩ := exists_split_at_read writes col
  refine ⟨bs, hbs, ?_⟩
  rw [hread before after col hw hcol hbefore hafter]
  exact State.interveneAll_fbRead fun w hmem => h w (by rw [hw]; exact List.mem_append_left _ hmem)

/-- Outside CLOSED, a GETROW of an existing row with SETPIXELs to other elements answers first, OK, and has an element's
value as it was. -/
theorem State.getRowAmong_untouched {s : State} {row : BitVec 16} {col : Nat} {writes : List Intervening}
    (hl : s.life ≠ .closed) (ha : s.fbAlloc = true) (hrow : row.toNat < 483) (hcol : col < s.timing.act.toNat)
    (h : ∀ w ∈ writes, row.toNat = w.row.toNat → col ≠ w.col.toNat) :
    ∃ bs more, (s.getRowAmong row writes).responses =
        s.responses ++ ⟨some (.getRow row), 0x00#8, .bytes bs⟩ :: more ∧
      bs[col]? = s.fbRead row.toNat col := by
  have hanswer : ∃ bs, s.getRowAmong row writes =
      (s.respond (some (.getRow row)) Status.ok.code (.bytes bs)).interveneAll writes ∧
      bs[col]? = s.fbRead row.toNat col := by
    by_cases hrun : s.life = .running
    · obtain ⟨bs, hbs, hread⟩ := State.rowBytesAmong_untouched ha hrow hcol h
      exact ⟨bs, by rw [State.getRowAmong_running hrun, hbs, State.answerRow], hread⟩
    · have hb := State.rowBytes_of_exists ha hrow
      obtain ⟨-, -, -, hread⟩ := State.rowBytes_eq_some hb
      exact ⟨_, by rw [State.getRowAmong_idle hrun, State.getRow_of_bytes hl hb], (hread col hcol).symm⟩
  obtain ⟨bs, heq, hread⟩ := hanswer
  obtain ⟨more, hmore⟩ :=
    State.interveneAll_adds_responses (s.respond (some (.getRow row)) Status.ok.code (.bytes bs)) writes
  refine ⟨bs, more, ?_, hread⟩
  rw [heq, hmore, State.respond_responses, List.append_assoc]
  rfl

/-- So it is in the step that serves such a GETROW. -/
theorem step_getRowAmong_untouched {s : State} {row : BitVec 16} {col : Nat} {writes : List Intervening}
    (hl : s.life ≠ .closed) (ha : s.fbAlloc = true) (hrow : row.toNat < 483) (hcol : col < s.timing.act.toNat)
    (h : ∀ w ∈ writes, row.toNat = w.row.toNat → col ≠ w.col.toNat) (rest : List Input) :
    ∃ u bs more, step { s with inputs := .getRowAmong row writes :: rest } = .next u ∧
      u.responses = s.responses ++ ⟨some (.getRow row), 0x00#8, .bytes bs⟩ :: more ∧ bs[col]? = s.fbRead row.toNat col := by
  obtain ⟨bs, more, hresponses, hread⟩ :=
    State.getRowAmong_untouched (s := { s with inputs := rest }) hl ha hrow hcol h
  exact ⟨_, bs, more, rfl, hresponses, hread⟩

/-- Settles O23: the write is to one element, the row read after it has it, and so has one read among writes elsewhere. -/
theorem setPixelWritesOneElement : Obligations.SetPixelWritesOneElement := by
  intro s row col value hs hl hrow hcol
  have ha := hs.fbAlloc_of_open hl
  have hrow' : row.toNat < 483 := Nat.lt_succ_of_le hrow
  have hx : s.elementExists row.toNat col.toNat = true := State.elementExists_iff.2 ⟨ha, hrow', hcol⟩
  have hsame := State.fbRead_write_same value hs.store_canonical hx
  have hb := State.rowBytes_of_exists ha hrow'
  refine ⟨_, congrArg Host.Outcome.next (State.setPixel_of_exists hl hx value), rfl, hsame, fun r c hne => ?_,
    fun a hne => Memory.read_write_other _ hne _, ⟨_, hb, ?_⟩, fun writes rest hothers => ?_⟩
  · exact State.fbRead_write_other value hx fun hr hc => hne (by rw [hr, hc])
  · refine congrArg Host.Outcome.next (State.getRow_of_bytes ?_ ?_)
    · exact hl
    · exact State.rowBytes_write hs.store_canonical hb hcol value
  · have hcolumns : ∀ w ∈ writes, row.toNat = w.row.toNat → col.toNat ≠ w.col.toNat := fun w hw hr hc =>
      hothers w hw (Prod.ext (BitVec.eq_of_toNat_eq hr.symm) (BitVec.eq_of_toNat_eq hc.symm))
    obtain ⟨u, bs, more, hstep, hresponses, hread⟩ := step_getRowAmong_untouched
      (s := ({ s with fb := s.fb.write (fbKey row.toNat col.toNat) value }).answer (.setPixel row col value) .ok)
      hl ha hrow' hcol hcolumns rest
    exact ⟨u, bs, more, hstep, hresponses, hread.trans hsame⟩

/-! ## A GETROW with SETPIXELs between its reads, and the commands one after the other -/

/-- The block with other responses given and other events to come: what lies beyond the port. -/
def State.withPort (s : State) (responses : List Response) (inputs : List Input) : State := { s with responses, inputs }

/-- What a GETROW answers does not depend on what has been answered and what is to come. -/
theorem State.getRow_withPort (s : State) (row : BitVec 16) :
    ∃ r, ∀ responses inputs, (s.withPort responses inputs).getRow row = s.withPort (responses ++ [r]) inputs := by
  by_cases hl : s.life = .closed
  · exact ⟨⟨some (.getRow row), Status.badState.code, .empty⟩, fun responses inputs => by
      have hclosed : (s.withPort responses inputs).life = .closed := hl
      rw [State.getRow, hclosed]
      rfl⟩
  · cases hb : s.rowBytes row.toNat with
    | none =>
      refine ⟨⟨some (.getRow row), Status.indexError.code, .empty⟩, fun responses inputs => ?_⟩
      have hnone : (s.withPort responses inputs).rowBytes row.toNat = none := hb
      rw [State.getRow_open (s := s.withPort responses inputs) hl, hnone]
      rfl
    | some bs =>
      exact ⟨⟨some (.getRow row), Status.ok.code, .bytes bs⟩, fun responses inputs =>
        State.getRow_of_bytes (s := s.withPort responses inputs) hl hb⟩

/-- Nor does what a SETPIXEL does. -/
theorem State.intervene_withPort (s : State) (w : Intervening) :
    ∃ r, ∀ responses inputs,
      (s.withPort responses inputs).intervene w = (s.intervene w).withPort (responses ++ [r]) inputs := by
  simp only [State.intervene]
  by_cases hl : s.life = .closed
  · refine ⟨⟨some (.setPixel w.row w.col w.value), Status.badState.code, .empty⟩, fun responses inputs => ?_⟩
    have hclosed : (s.withPort responses inputs).life = .closed := hl
    rw [State.setPixel, State.setPixel, hl, hclosed]
    rfl
  · cases hx : s.elementExists w.row.toNat w.col.toNat
    · refine ⟨⟨some (.setPixel w.row w.col w.value), Status.indexError.code, .empty⟩, fun responses inputs => ?_⟩
      rw [State.setPixel_of_absent hl hx, State.setPixel_of_absent (s := s.withPort responses inputs) hl hx]
      rfl
    · refine ⟨⟨some (.setPixel w.row w.col w.value), Status.ok.code, .empty⟩, fun responses inputs => ?_⟩
      rw [State.setPixel_of_exists hl hx, State.setPixel_of_exists (s := s.withPort responses inputs) hl hx]
      rfl

/-- Nor does what SETPIXELs in turn do. -/
theorem State.interveneAll_withPort (s : State) (writes : List Intervening) :
    ∃ answers, ∀ responses inputs,
      (s.withPort responses inputs).interveneAll writes =
        (s.interveneAll writes).withPort (responses ++ answers) inputs := by
  induction writes generalizing s with
  | nil => exact ⟨[], fun _ _ => by rw [List.append_nil]; rfl⟩
  | cons w writes ih =>
    obtain ⟨r, hr⟩ := s.intervene_withPort w
    obtain ⟨answers, hanswers⟩ := ih (s.intervene w)
    exact ⟨r :: answers, fun responses inputs => by
      rw [State.interveneAll_cons, hr, hanswers, List.append_assoc, List.singleton_append, State.interveneAll_cons]⟩

/-- The SETPIXELs of such an event, presented one after the other (R199). -/
theorem stepsFrom_intervening (writes : List Intervening) (s : State) (responses : List Response) (rest : List Input) :
    stepsFrom writes.length (s.withPort responses (asEvents (writes.map Intervening.command) ++ rest)) =
      .next ((s.withPort responses rest).interveneAll writes) := by
  induction writes generalizing s responses with
  | nil => rfl
  | cons w writes ih =>
    obtain ⟨r, hr⟩ := s.intervene_withPort w
    have hstep := step_command
      (s := s.withPort responses (asEvents ((w :: writes).map Intervening.command) ++ rest)) (i := w.command) rfl
    refine (stepsFrom_succ _ (hstep.trans (congrArg Host.Outcome.next (hr responses _)))).trans ?_
    rw [State.interveneAll_cons, hr]
    exact ih ..

/-- A GETROW and then SETPIXELs, presented one after the other. -/
theorem stepsFrom_getRow_intervening (row : BitVec 16) (writes : List Intervening) (s : State) (responses : List Response)
    (rest : List Input) :
    stepsFrom (writes.length + 1)
        (s.withPort responses (asEvents (.getRow row :: writes.map Intervening.command) ++ rest)) =
      .next (((s.withPort responses rest).getRow row).interveneAll writes) := by
  obtain ⟨r, hr⟩ := s.getRow_withPort row
  have hstep := step_command
    (s := s.withPort responses (asEvents (.getRow row :: writes.map Intervening.command) ++ rest)) (i := .getRow row) rfl
  refine (stepsFrom_succ _ (hstep.trans (congrArg Host.Outcome.next (hr responses _)))).trans ?_
  rw [hr]
  exact stepsFrom_intervening ..

/-- Every command has a next state (R157). -/
theorem exec_next (i : Instr) (s : State) : ∃ t, exec i s = .next t := by
  obtain ⟨t, ht, -⟩ := exec_cases i s
  exact ⟨t, ht⟩

theorem step_next (s : State) : ∃ t, step s = .next t := by
  cases hin : s.inputs with
  | nil => exact ⟨s, by rw [step, nextEvent, hin]⟩
  | cons e rest =>
    rw [step_cons hin]
    cases e with
    | command w =>
      rw [takeEvent, serve]
      cases decode w with
      | command i => exact exec_next i _
      | illegal why => exact ⟨_, rfl⟩
    | encoder a => exact ⟨_, rfl⟩
    | getRowAmong row writes => exact ⟨_, rfl⟩
    | setup v => exact ⟨_, rfl⟩
    | reset => exact ⟨_, rfl⟩

/-- Settles O6: the first event's effect, and outside RUNNING a GETROW and SETPIXELs are the commands in turn. -/
theorem stepTakesEveryOtherEvent : Obligations.StepTakesEveryOtherEvent := by
  refine ⟨fun s w why rest hin hd => ?_, fun s a rest hin => step_cons hin, fun s row writes rest hin hl => ?_,
    fun s v rest hin => step_cons hin, fun s hin => ?_, step_next⟩
  · rw [step_cons hin, takeEvent, serve, hd]
    rfl
  · refine (step_cons hin).trans (.trans ?_ (stepsFrom_getRow_intervening row writes s s.responses rest).symm)
    exact congrArg Host.Outcome.next (State.getRowAmong_idle (s := { s with inputs := rest }) hl row writes)
  · rw [step, nextEvent, hin]

/-- While RUNNING, the answer of a GETROW comes first, and the SETPIXELs are as if they had been served in turn. -/
theorem State.getRowAmong_answers_first {s : State} (hl : s.life = .running) {row : BitVec 16} {writes : List Intervening}
    {bs : List Byte} (h : State.rowBytesAmong row.toNat writes s = some bs) :
    s.getRowAmong row writes = { s.interveneAll writes with
      responses := s.responses ++ ⟨some (.getRow row), 0x00#8, .bytes bs⟩ ::
        (s.interveneAll writes).responses.drop s.responses.length } := by
  obtain ⟨answers, hanswers⟩ := s.interveneAll_withPort writes
  have hresponses : (s.interveneAll writes).responses = s.responses ++ answers :=
    congrArg State.responses (hanswers s.responses s.inputs)
  rw [State.getRowAmong_running hl, h, State.answerRow, hresponses, List.drop_left]
  have hall := hanswers (s.responses ++ [⟨some (.getRow row), 0x00#8, .bytes bs⟩]) s.inputs
  rw [List.append_assoc, List.singleton_append] at hall
  refine hall.trans ?_
  rw [State.withPort, ← s.interveneAll_inputs writes]

/-- What SETPIXELs in turn leave to be read does not depend on what lies beyond the port. -/
theorem State.interveneAll_withPort_fbRead (s : State) (writes : List Intervening) (responses : List Response)
    (inputs : List Input) :
    ((s.withPort responses inputs).interveneAll writes).fbRead = (s.interveneAll writes).fbRead := by
  obtain ⟨answers, hanswers⟩ := s.interveneAll_withPort writes
  rw [hanswers]
  rfl

/-- A GETROW of a row that does not exist reads nothing between the SETPIXELs: it is the commands in turn. -/
theorem State.getRowAmong_of_absent {s : State} (hl : s.life = .running) {row : BitVec 16}
    (hx : s.rowExists row.toNat = false) (writes : List Intervening) :
    s.getRowAmong row writes = (s.getRow row).interveneAll writes := by
  have hnone : State.rowBytesAmong row.toNat writes s = none := by
    simp [State.rowBytesAmong, State.rowBytes_of_absent hx]
  rw [State.getRowAmong_running hl, hnone, State.getRow_of_absent (by simp [hl]) hx, State.answerRow]

/-- Settles O59: a byte is read of the store left by the SETPIXELs before its read, and the rest is those served in turn. -/
theorem nextByteOfARowRead : Obligations.NextByteOfARowRead := by
  intro s row writes rest hin hl
  refine ⟨fun hrow => ?_, fun ha hrow => ?_⟩
  · have habsent : s.rowExists row.toNat = false := by
      rw [← Bool.not_eq_true, State.rowExists_iff]
      omega
    refine (step_cons hin).trans (.trans ?_ (stepsFrom_getRow_intervening row writes s s.responses rest).symm)
    exact congrArg Host.Outcome.next (State.getRowAmong_of_absent (s := s.withPort s.responses rest) hl habsent writes)
  · obtain ⟨bs, hbs, hlen, hread⟩ :=
      State.rowBytesAmong_spec (Nat.lt_succ_of_le hrow) writes (s := s.withPort s.responses rest) ha
    refine ⟨bs, _, hlen, fun pre post c hw hc hpre hpost => ?_, stepsFrom_intervening writes s s.responses rest, ?_⟩
    · have hpresented := stepsFrom_intervening pre s s.responses []
      rw [List.append_nil] at hpresented
      refine ⟨_, hpresented, ?_⟩
      rw [hread pre post c hw hc hpre hpost, State.interveneAll_withPort_fbRead, State.interveneAll_withPort_fbRead]
    · exact (step_cons hin).trans
        (congrArg Host.Outcome.next (State.getRowAmong_answers_first (s := s.withPort s.responses rest) hl hbs))

/-! ## A row of two moments -/

section Intervene

variable {s : State} {row : BitVec 16} {col : Word} {bs : List Byte} (hl : s.life ≠ .closed)
  (hb : s.rowBytes row.toNat = some bs) (hc : col.toNat < s.timing.act.toNat) (reads : Nat) (value : Byte)
include hl hb hc

/-- A SETPIXEL to a row that is read writes its element and answers OK. -/
theorem State.intervene_of_row :
    s.intervene ⟨reads, row, col, value⟩ =
      ({ s with fb := s.fb.write (fbKey row.toNat col.toNat) value }).answer (.setPixel row col value) .ok := by
  obtain ⟨ha, hrow, -, -⟩ := State.rowBytes_eq_some hb
  exact State.setPixel_of_exists hl (State.elementExists_iff.2 ⟨ha, hrow, hc⟩) value

/-- The row then has the value in its column. -/
theorem State.rowBytes_intervene (hw : s.fb.wf = true) :
    (s.intervene ⟨reads, row, col, value⟩).rowBytes row.toNat = some (bs.set col.toNat value) := by
  rw [State.intervene_of_row hl hb hc]
  exact State.rowBytes_write hw hb hc value

end Intervene

section TwoWrites

variable {s : State} {row : BitVec 16} {c d : Word} {before : List Byte} (hw : s.fb.wf = true) (hl : s.life ≠ .closed)
  (hb : s.rowBytes row.toNat = some before) (hc : c.toNat < s.timing.act.toNat) (hd : d.toNat < s.timing.act.toNat)
  (x y : Byte) (j : Nat)
include hw hl hb hc hd

/-- After the first SETPIXEL the second too finds its row. -/
theorem State.intervene_second :
    (s.intervene ⟨j, row, c, x⟩).intervene ⟨0, row, d, y⟩ = ({ s.intervene ⟨j, row, c, x⟩ with
      fb := (s.fb.write (fbKey row.toNat c.toNat) x).write (fbKey row.toNat d.toNat) y }).answer (.setPixel row d y) .ok ∧
    ((s.intervene ⟨j, row, c, x⟩).intervene ⟨0, row, d, y⟩).rowBytes row.toNat =
      some ((before.set c.toNat x).set d.toNat y) := by
  have hbetween := State.rowBytes_intervene hl hb hc j x hw
  have hfirst := State.intervene_of_row hl hb hc j x
  have hl' : (s.intervene ⟨j, row, c, x⟩).life ≠ .closed := by rw [hfirst]; exact hl
  have hd' : d.toNat < (s.intervene ⟨j, row, c, x⟩).timing.act.toNat := by rw [hfirst]; exact hd
  have hw' : (s.intervene ⟨j, row, c, x⟩).fb.wf = true := by rw [hfirst]; exact Memory.write_keeps_wf hw _ _
  refine ⟨?_, State.rowBytes_intervene hl' hbetween hd' 0 y hw'⟩
  rw [State.intervene_of_row hl' hbetween hd' 0 y, hfirst]
  rfl

/-- Two SETPIXELs to a row, in turn. -/
theorem State.interveneAll_two :
    s.interveneAll [⟨j, row, c, x⟩, ⟨0, row, d, y⟩] = { s with
      fb := (s.fb.write (fbKey row.toNat c.toNat) x).write (fbKey row.toNat d.toNat) y
      responses := s.responses ++
        [⟨some (.setPixel row c x), 0x00#8, .empty⟩, ⟨some (.setPixel row d y), 0x00#8, .empty⟩] } := by
  obtain ⟨hsecond, -⟩ := State.intervene_second hw hl hb hc hd x y j
  rw [State.interveneAll_cons, State.interveneAll_cons, State.interveneAll_nil, hsecond, State.intervene_of_row hl hb hc j x]
  simp [State.answer, State.respond, Status.code]

/-- With two SETPIXELs after `j + 1` reads of a row, the bytes before are those before both, the rest those after both. -/
theorem State.rowBytesAmong_two :
    State.rowBytesAmong row.toNat [⟨j, row, c, x⟩, ⟨0, row, d, y⟩] s =
      some (before.take (j + 1) ++ ((before.set c.toNat x).set d.toNat y).drop (j + 1)) := by
  have hbetween := State.rowBytes_intervene hl hb hc j x hw
  obtain ⟨-, hafter⟩ := State.intervene_second hw hl hb hc hd x y j
  simp only [State.rowBytesAmong, State.rowBytesFrom, hb, hbetween, hafter, Option.map_some, List.take_zero, List.nil_append,
    Nat.add_zero]
  rw [← List.append_assoc, Nat.add_comm j 1, List.take_add]

end TwoWrites

/-- The mixture differs from each moment in one of the two columns written. -/
theorem mixture_ne_moments {before : List Byte} {c d j : Nat} {x y : Byte} (hc : c ≤ j) (hd : j < d)
    (hlen : d < before.length) (hx : before[c]? ≠ some x) (hy : before[d]? ≠ some y) :
    before.take (j + 1) ++ ((before.set c x).set d y).drop (j + 1) ∉
      [before, before.set c x, (before.set c x).set d y] := by
  generalize hmix : before.take (j + 1) ++ ((before.set c x).set d y).drop (j + 1) = mix
  have hmixc : mix[c]? = before[c]? := by
    rw [← hmix, List.getElem?_append_left (by simp; omega), List.getElem?_take_of_lt (by omega)]
  have hmixd : mix[d]? = some y := by
    rw [← hmix, List.getElem?_append_right (by simp; omega), List.getElem?_drop, List.length_take,
      Nat.min_eq_left (by omega), Nat.add_sub_cancel' (by omega), List.getElem?_set_self (by simpa using hlen)]
  have hsetc : (before.set c x)[c]? = some x := List.getElem?_set_self (by omega)
  simp only [List.mem_cons, List.not_mem_nil, or_false, not_or]
  refine ⟨?_, ?_, ?_⟩ <;> rintro rfl
  · exact hy hmixd
  · exact hx (hmixc.symm.trans hsetc)
  · refine hx (hmixc.symm.trans ?_)
    rw [List.getElem?_set_ne (by omega), hsetc]

/-- Settles O60: the reads before both writes and after both, and the two columns that tell the mixture from each moment. -/
theorem getRowWhileRunningMayMixMoments : Obligations.GetRowWhileRunningMayMixMoments := by
  intro s row c d x y j rest hs hl hrow hc hd _ hin
  have hopen : s.life ≠ .closed := by simp [hl]
  have hb := State.rowBytes_of_exists (hs.fbAlloc_of_open hopen) (Nat.lt_succ_of_le hrow)
  obtain ⟨-, -, hlen, -⟩ := State.rowBytes_eq_some hb
  generalize (List.range s.timing.act.toNat).map (fun c => s.fb.read (fbKey row.toNat c)) = before at hb hlen
  refine ⟨before, _, _, _, hb, rfl, rfl, rfl, ?_, fun hcj hjd hx hy => mixture_ne_moments hcj hjd (by omega) hx hy⟩
  have hbytes := State.rowBytesAmong_two (s := { s with inputs := rest }) hs.store_canonical hopen hb hc hd x y j
  rw [step_cons hin, takeEvent, State.getRowAmong_running (s := { s with inputs := rest }) hl, hbytes, State.answerRow]
  refine congrArg Host.Outcome.next ((State.interveneAll_two (before := before) ?_ ?_ ?_ ?_ ?_ x y j).trans ?_)
  · exact hs.store_canonical
  · exact hopen
  · exact hb
  · exact hc
  · exact hd
  · simp [Status.code]

/-! ## Who writes the store -/

/-- A command writes the store only as SETPIXEL, INIT or CLOSE. -/
theorem exec_store {i : Instr} {s t : State} (h : exec i s = .next t) :
    t.fb = s.fb ∨
    (∃ row col value, i = .setPixel row col value ∧ t.fb = s.fb.write (fbKey row.toNat col.toNat) value) ∨
    (i = .init ∧ s.life = .closed ∧ t.life = .ready) ∨ (i = .close ∧ t.life = .closed) := by
  obtain ⟨u, hu, hcases⟩ := exec_cases i s
  obtain rfl : u = t := Host.Outcome.next.inj (hu.symm.trans h)
  rcases hcases with ⟨st, p, rfl, -⟩ | ⟨hi, hl, tm, -, rfl⟩ | ⟨hi, -, rfl⟩ | ⟨-, -, rfl⟩ | ⟨-, -, rfl⟩ | ⟨-, -, rfl⟩ |
    ⟨reg, data, cfg, -, -, -, rfl⟩ | ⟨row, col, value, hi, -, -, rfl⟩
  case inr.inl => exact .inr (.inr (.inl ⟨hi, hl, rfl⟩))
  case inr.inr.inl => exact .inr (.inr (.inr ⟨hi, rfl⟩))
  case inr.inr.inr.inr.inr.inr.inr => exact .inr (.inl ⟨row, col, value, hi, rfl⟩)
  all_goals exact .inl rfl

/-- Settles O51: of the events only these write the store, and a SETPIXEL only the address it names. -/
theorem whoWritesTheFramebuffer : Obligations.WhoWritesTheFramebuffer := by
  intro s t hstep
  rcases step_cases hstep with ⟨-, rfl⟩ | ⟨e, rest, hin, hcases⟩
  · exact .inl fun _ => rfl
  rcases hcases with ⟨w, i, rfl, hd, hexec⟩ | ⟨w, why, -, -, rfl⟩ | ⟨a, rfl, rfl⟩ | ⟨row, writes, rfl, rfl⟩ | ⟨v, -, rfl⟩ |
    ⟨rfl, rfl⟩
  · obtain rfl := encode_of_decode hd
    rcases exec_store hexec with heq | ⟨row, col, value, rfl, heq⟩ | ⟨rfl, hl, ht⟩ | ⟨rfl, ht⟩
    · exact .inl fun _ => by rw [heq]
    · exact .inr (.inl ⟨row, col, value, rest, hin, fun a hne => by rw [heq]; exact Memory.read_write_other _ hne value⟩)
    · exact .inr (.inr (.inr (.inl ⟨hl, ht, rest, hin⟩)))
    · exact .inr (.inr (.inr (.inr (.inl ⟨ht, rest, hin⟩))))
  · exact .inl fun _ => rfl
  · obtain ⟨-, -, -, hfb⟩ := State.encoderStep_frame { s with inputs := rest } a
    exact .inl fun _ => by rw [hfb]
  · refine .inr (.inr (.inl ⟨row, writes, rest, hin, fun a hne => ?_⟩))
    exact State.getRowAmong_keeps (P := fun t => t.fb.read a = s.fb.read a) row writes rfl (fun _ _ _ _ h => h)
      fun _ w hw _ _ h => (Memory.read_write_other _ (hne w hw) w.value).trans h
  · exact .inl fun _ => rfl
  · exact .inr (.inr (.inr (.inr (.inr ⟨rest, hin⟩))))

end Sys2Proof.Machine
end

section
/-! PROOFS. The encoder at work (spec/43_scanline_encoder.md R126 to R129, spec/44_stream_and_lifecycle.md sections 5 and 6): its
steps and halts, whole scanlines by PUMPONCE and by RUN, the stream as scanlines, and the safe windows
(spec/70_reset_and_hazards.md R198). -/

namespace Sys2Proof.Machine

/-! ## Scanlines -/

theorem State.lineIndex_of_line {s : State} {k : Nat} (hk : s.scan.line.toNat = s.cfg.v + s.cfg.h + k) :
    s.lineIndex = some (2 * k + s.scan.field.bit.toNat) := by
  have hsub : s.cfg.v + s.cfg.h + k - s.cfg.v - s.cfg.h = k := by omega
  rw [State.lineIndex, if_pos (by omega), hk, hsub]

/-- Settles O36: with `k` picture lines done, the formula of R115 counts 2k and the field. -/
theorem lineIndexFormula : Obligations.LineIndexFormula := by
  refine ⟨fun s k hk => ?_, fun s hv hh => ⟨fun hs => ?_, fun hs => ?_⟩⟩
  · rw [State.lineIndex_of_line hk]
    cases s.scan.field <;> rfl
  · rw [State.lineIndex_of_line (k := 0) (by rw [hs, hv, hh]; rfl), hs]
    rfl
  · rw [State.lineIndex_of_line (k := 240) (by rw [hs, hv, hh]; rfl), hs]
    rfl

/-- An open block always has its scanline, of SPL pairs (R110, R117). -/
theorem State.Inv.produce_of_open {s : State} (h : s.Inv) (hl : s.life ≠ .closed) :
    ∃ ps, s.produce = some ps ∧ ps.length = s.timing.spl.toNat := by
  obtain ⟨ps, hps⟩ := State.produce_of_in_bounds (h.fbAlloc_of_open hl) (h.open_scan hl).row_in_bounds
  obtain ⟨hlen, -⟩ := State.produce_eq_some hps
  exact ⟨ps, hps, hlen⟩

/-- Settles O32: the scan invariant keeps the row inside the store, and then every sample has its pair. -/
theorem everyScanlineHasSplPairs : Obligations.EveryScanlineHasSplPairs := fun _ h hl =>
  ⟨(h.open_scan hl).row_in_bounds, h.produce_of_open hl⟩

/-! ## The steps of a running encoder -/

/-- The encoder takes no step unless LIFE is RUNNING (R24, R179). -/
theorem State.encoderStep_idle {s : State} (hl : s.life ≠ .running) (a : SinkAnswer) : s.encoderStep a = s := by
  cases hlife : s.life <;> simp_all [State.encoderStep]

section Running

variable {s : State} (hl : s.life = .running)
include hl

/-- Line start (R127). -/
theorem State.encoderStep_lineStart (ha : s.lineActive = false) (hr : s.runMode = true → s.stopReq = false)
    (a : SinkAnswer) : s.encoderStep a = s.lineStart := by
  have hgo : (s.runMode && s.stopReq) = false := by cases hmode : s.runMode <;> simp_all
  simp [State.encoderStep, hl, ha, hgo]

/-- A RUN with a stop request at a boundary (R143). -/
theorem State.encoderStep_runStopped (ha : s.lineActive = false) (hr : s.runMode = true) (hstop : s.stopReq = true)
    (a : SinkAnswer) : s.encoderStep a = s.runStopped := by
  simp [State.encoderStep, hl, ha, hr, hstop]

/-- Line end, once every pair is accepted (R128). -/
theorem State.encoderStep_lineEnd (ha : s.lineActive = true) (hs : s.timing.spl.toNat ≤ s.sil.toNat) (a : SinkAnswer) :
    s.encoderStep a = s.lineEnd := by
  simp [State.encoderStep, hl, ha, hs.not_gt]

/-- A pair on offer (R126). -/
theorem State.encoderStep_sample (ha : s.lineActive = true) (hs : s.sil.toNat < s.timing.spl.toNat) (a : SinkAnswer) :
    s.encoderStep a = s.sampleStep a := by
  simp [State.encoderStep, hl, ha, hs]

end Running

/-- A line start within bounds (R127). -/
theorem State.lineStart_in_bounds {s : State} (hb : s.rowOutOfBounds = false) :
    s.lineStart = { s with lineActive := true, sil := 0#32 } := by
  simp [State.lineStart, hb]

/-- A line start out of bounds (R117, R166). -/
theorem State.lineStart_out_of_bounds {s : State} (hb : s.rowOutOfBounds = true) :
    s.lineStart = s.halt .consistencyError := by
  simp [State.lineStart, hb]

/-- The line end of a RUN (R142). -/
theorem State.lineEnd_run {s : State} (h : s.runMode = true) :
    s.lineEnd = { s with scan := s.scan.advance s.cfg.v s.cfg.h, sil := 0#32, lineActive := false } := by
  simp [State.lineEnd, State.afterLine, State.advance, h]

/-- The line end of a PUMPONCE (R141). -/
theorem State.lineEnd_pumpOnce {s : State} (h : s.runMode = false) :
    s.lineEnd = ({ s with
      scan := s.scan.advance s.cfg.v s.cfg.h, sil := 0#32, lineActive := false, life := .ready }).answer .pumpOnce .ok := by
  simp [State.lineEnd, State.afterLine, State.advance, h]

/-- Settles O40: the branches of the encoder's step. -/
theorem encoderSteps : Obligations.EncoderSteps := by
  intro s a hl
  refine ⟨fun ha hr hb => ?_, fun p ha hs hp => ⟨State.encoderStep_accept hl ha hs hp, ?_⟩,
    fun ha hs => ⟨fun hr => ?_, fun hr => ?_⟩, fun ha hr hstop => State.encoderStep_runStopped hl ha hr hstop a⟩
  · rw [State.encoderStep_lineStart hl ha hr, State.lineStart_in_bounds hb]
  · rw [State.encoderStep_sample hl ha hs, State.sampleStep, hp]
  · rw [State.encoderStep_lineEnd hl ha (by rw [hs]), State.lineEnd_run hr]
  · rw [State.encoderStep_lineEnd hl ha (by rw [hs]), State.lineEnd_pumpOnce hr]
    rfl

/-- Settles O41: the two branches that halt, and the one without a step. -/
theorem runtimeErrorsHalt : Obligations.RuntimeErrorsHalt := by
  intro s a
  refine ⟨fun hl ha hr hm row hrow hlarge => ?_, fun p hl ha hs hp => ?_, fun hl => ?_⟩
  · have hb : s.rowOutOfBounds = true := (State.rowOutOfBounds_iff s).2 ⟨hm, fun r hr => by simp_all; omega⟩
    rw [State.encoderStep_lineStart hl ha hr, State.lineStart_out_of_bounds hb]
    rfl
  · rw [State.encoderStep_sample hl ha hs, State.sampleStep, hp]
    rfl
  · exact State.encoderStep_idle (by simp [hl]) a

/-- The step of an encoder's turn. -/
theorem step_encoder {s : State} {a : SinkAnswer} {rest : List Input} (hin : s.inputs = .encoder a :: rest) :
    step s = .next (State.encoderStep { s with inputs := rest } a) :=
  step_cons hin

section Boundary

variable {s : State} {a : SinkAnswer} {rest : List Input} (hl : s.life = .running) (hin : s.inputs = .encoder a :: rest)
include hl hin

theorem step_lineStart (ha : s.lineActive = false) (hr : s.runMode = true → s.stopReq = false)
    (hb : s.rowOutOfBounds = false) : step s = .next { s with lineActive := true, sil := 0#32, inputs := rest } :=
  (step_encoder hin).trans (congrArg Host.Outcome.next
    ((State.encoderStep_lineStart (s := { s with inputs := rest }) hl ha hr a).trans (State.lineStart_in_bounds hb)))

theorem step_lineEnd (ha : s.lineActive = true) (hs : s.timing.spl.toNat ≤ s.sil.toNat) :
    step s = .next (State.lineEnd { s with inputs := rest }) :=
  (step_encoder hin).trans
    (congrArg Host.Outcome.next (State.encoderStep_lineEnd (s := { s with inputs := rest }) hl ha hs a))

theorem step_runStopped (ha : s.lineActive = false) (hr : s.runMode = true) (hstop : s.stopReq = true) :
    step s = .next (State.runStopped { s with inputs := rest }) :=
  (step_encoder hin).trans
    (congrArg Host.Outcome.next (State.encoderStep_runStopped (s := { s with inputs := rest }) hl ha hr hstop a))

end Boundary

/-- Settles O48: RUN starts the encoder between lines, and its first turn honours the request. -/
theorem pendingStopEndsTheNextRunAtOnce : Obligations.PendingStopEndsTheNextRunAtOnce := by
  intro s a rest h hl hstop hin
  obtain ⟨-, hline, hmode, -⟩ := h.ready_facts hl
  have hrun := (step_command hin).trans (exec_run_ready hl)
  refine (stepsFrom_succ 1 hrun).trans ?_
  refine (stepsFrom_succ 0 (step_runStopped ?_ rfl ?_ ?_ ?_)).trans ?_
  · rfl
  · exact hline
  · rfl
  · exact hstop
  · simp [stepsFrom, State.runStopped, State.answer, State.respond, Status.code, hl, hmode]

/-! ## Whole scanlines -/

section Turns

variable {s : State} {ps : List Pair} {rest : List Input} (hl : s.life = .running) (hp : s.produce = some ps)
include hl hp

/-- From a boundary, a line start and `k` accepted pairs (R126, R127). -/
theorem stepsFrom_line_begun (ha : s.lineActive = false) (hr : s.runMode = true → s.stopReq = false) {k : Nat}
    (hk : k ≤ s.timing.spl.toNat) (hin : s.inputs = List.replicate (1 + k) (.encoder .accept) ++ rest) :
    stepsFrom (1 + k) s = .next { s with
      lineActive := true, sil := BitVec.ofNat 32 k, stream := s.stream ++ ps.take k, inputs := rest } := by
  have hb := State.rowOutOfBounds_of_produce hp
  rw [Nat.add_comm 1 k] at hin ⊢
  refine (stepsFrom_succ k (step_lineStart hl hin ha hr hb)).trans ?_
  refine (stepsFrom_accepts (ps := ps) k ?_ ?_ ?_ ?_ rfl).trans ?_
  · exact hl
  · rfl
  · exact hp
  · simpa using hk
  · simp

/-- The rest of a scanline in flight and its line end (R126, R128). -/
theorem stepsFrom_line_rest (ha : s.lineActive = true) {k : Nat} (hk : s.sil.toNat + k = s.timing.spl.toNat)
    (hin : s.inputs = List.replicate (k + 1) (.encoder .accept) ++ rest) :
    stepsFrom (k + 1) s =
      .next (State.lineEnd { s with stream := s.stream ++ ps.drop s.sil.toNat, inputs := rest }) := by
  rw [List.replicate_succ', List.append_assoc] at hin
  rw [stepsFrom_add k 1 (stepsFrom_accepts_rest k hl ha hp hk hin)]
  exact stepsFrom_succ 0 (step_lineEnd hl rfl ha le_rfl)

/-- Line start, SPL accepted pairs and line end: the scanline is emitted, and the line ends (R129). -/
theorem stepsFrom_wholeLine (ha : s.lineActive = false) (hr : s.runMode = true → s.stopReq = false)
    (hin : s.inputs = wholeLine s.timing.spl.toNat ++ rest) :
    stepsFrom (s.timing.spl.toNat + 2) s = .next (State.lineEnd { s with stream := s.stream ++ ps, inputs := rest }) := by
  have hturns : s.timing.spl.toNat + 2 = 1 + 0 + (s.timing.spl.toNat + 1) := by omega
  have hin' : s.inputs = List.replicate (1 + 0) (.encoder .accept) ++
      (List.replicate (s.timing.spl.toNat + 1) (.encoder .accept) ++ rest) := by
    rw [hin, wholeLine, hturns, List.replicate_add, List.append_assoc]
  rw [hturns, stepsFrom_add _ _ (stepsFrom_line_begun hl hp ha hr (Nat.zero_le _) hin')]
  refine (stepsFrom_line_rest (ps := ps) ?_ ?_ ?_ ?_ rfl).trans ?_
  · exact hl
  · exact hp
  · rfl
  · simp
  · simp
    rfl

end Turns

theorem State.lineStep_of_produce {s : State} {ps : List Pair} (hp : s.produce = some ps) :
    s.lineStep = State.lineEnd { s with stream := s.stream ++ ps } := by
  rw [State.lineStep, hp]

/-- Settles O42: both emit the scanline PRODUCE gives and end the line. -/
theorem sampleStepsAgreeWithLineStep : Obligations.SampleStepsAgreeWithLineStep := by
  intro s rest h hl ha hr hin
  obtain ⟨ps, hp, -⟩ := h.produce_of_open (by simp [hl])
  have hp' : State.produce { s with inputs := rest } = some ps := hp
  rw [State.lineStep_of_produce hp', wholeLine, List.length_replicate]
  exact stepsFrom_wholeLine hl hp ha hr hin

/-- Settles O43: PUMPONCE starts the encoder between lines, and the end of its line is READY with OK. -/
theorem pumpOnceEmitsOneScanline : Obligations.PumpOnceEmitsOneScanline := by
  intro s es rest h hl hes hin
  obtain ⟨ps, hp, hlen⟩ := h.produce_of_open (by simp [hl])
  obtain ⟨hsil, hinactive, hmode, -⟩ := h.ready_facts hl
  refine ⟨ps, hp, hlen, ?_⟩
  rw [hes] at hin ⊢
  have hstart := (step_command hin).trans (exec_pumpOnce_ready hl)
  rw [List.length_cons, wholeLine, List.length_replicate]
  have hline := stepsFrom_wholeLine (ps := ps) (rest := rest)
    (s := { s with life := .running, runMode := false, inputs := wholeLine s.timing.spl.toNat ++ rest }) rfl hp hinactive
    (by simp) rfl
  rw [State.lineEnd_pumpOnce rfl] at hline
  refine (stepsFrom_succ _ hstart).trans (hline.trans ?_)
  simp [State.answer, State.respond, Status.code, hl, hsil, hinactive, hmode]

/-! ## A RUN -/

theorem State.scanlines_succ {s : State} {n : Nat} {ps line : List Pair} (h : s.scanlines n = some ps)
    (hline : (s.lineAt n).produce = some line) : s.scanlines (n + 1) = some (ps ++ line) := by
  obtain ⟨lines, hlines, rfl⟩ := Option.map_eq_some_iff.1 h
  refine Option.map_eq_some_iff.2 ⟨lines ++ [line], ?_, by simp⟩
  rw [allSome_eq_some] at hlines ⊢
  rw [List.range_succ, List.map_append, hlines, List.map_append, List.map_singleton, hline, List.map_singleton]

/-- The machine `n` scanlines on, at the boundary after them: their pairs `ps` emitted, `inputs` to come. -/
def State.linesOn (s : State) (n : Nat) (ps : List Pair) (inputs : List Input) : State :=
  { s.lineAt n with stream := s.stream ++ ps, inputs }

section Run

variable {s : State} (h : s.Inv) (hl : s.life = .running) (ha : s.lineActive = false) (hr : s.runMode = true)
  (hstop : s.stopReq = false)
include h hl ha hr hstop

/-- `n` scanlines of a RUN with no stop request, in line-step order (R142, R153). -/
theorem stepsFrom_lines (n : Nat) {rest : List Input}
    (hin : s.inputs = (List.replicate n (wholeLine s.timing.spl.toNat)).flatten ++ rest) :
    ∃ ps, s.scanlines n = some ps ∧ ps.length = n * s.timing.spl.toNat ∧ (s.linesOn n ps rest).Inv ∧
      stepsFrom (n * (s.timing.spl.toNat + 2)) s = .next (s.linesOn n ps rest) := by
  have hsil := h.between_lines ha (by simp [hl])
  induction n generalizing rest with
  | zero =>
    obtain rfl : s.inputs = rest := hin
    have hnone : s.linesOn 0 [] s.inputs = s := by simp [State.linesOn, State.lineAt, Scan.advanceBy]
    exact ⟨[], rfl, by simp, by rwa [hnone], by simp [stepsFrom, hnone]⟩
  | succ n ih =>
    rw [List.replicate_succ', List.flatten_append, List.flatten_singleton, List.append_assoc] at hin
    obtain ⟨ps, hps, hlen, hinv, hsteps⟩ := ih hin
    obtain ⟨line, hline, hlineLen⟩ := hinv.produce_of_open (by simp [State.linesOn, State.lineAt, hl])
    have hend := stepsFrom_wholeLine (s := s.linesOn n ps _) hl hline ha (fun _ => hstop) rfl
    have hall : stepsFrom ((n + 1) * (s.timing.spl.toNat + 2)) s = .next (s.linesOn (n + 1) (ps ++ line) rest) := by
      rw [Nat.add_one_mul, stepsFrom_add _ _ hsteps]
      refine hend.trans ((congrArg Host.Outcome.next (State.lineEnd_run ?_)).trans ?_)
      · exact hr
      · simp [State.linesOn, State.lineAt, Scan.advanceBy, hsil, ha]
    refine ⟨ps ++ line, State.scanlines_succ hps hline, ?_, stepsFrom_keeps (fun _ _ => State.Inv.of_step) h hall, hall⟩
    rw [List.length_append, hlen, hlineLen, Nat.add_one_mul]
    rfl

end Run

/-- The step that serves a STOP outside CLOSED (R144). -/
theorem step_stop {s : State} {rest : List Input} (hl : s.life ≠ .closed)
    (hin : s.inputs = .command (encode .stop) :: rest) :
    step s = .next { s with
      stopReq := true, inputs := rest, responses := s.responses ++ [⟨some .stop, 0x00#8, .empty⟩] } :=
  (step_command hin).trans (exec_stop_open (s := { s with inputs := rest }) hl)

/-- A RUN at a boundary whose next scanline a STOP cuts after `k` pairs: STOP answers with the scanline in flight. -/
theorem stepsFrom_stop_in_line {s : State} {ps : List Pair} {k : Nat} {rest : List Input} (hl : s.life = .running)
    (ha : s.lineActive = false) (hstop : s.stopReq = false) (hp : s.produce = some ps) (hk : k ≤ s.timing.spl.toNat)
    (hin : s.inputs = List.replicate (1 + k) (.encoder .accept) ++ .command (encode .stop) :: rest) :
    stepsFrom (1 + k + 1) s = .next { s with
      lineActive := true, sil := BitVec.ofNat 32 k, stream := s.stream ++ ps.take k, stopReq := true, inputs := rest,
      responses := s.responses ++ [⟨some .stop, 0x00#8, .empty⟩] } := by
  rw [stepsFrom_add _ _ (stepsFrom_line_begun hl hp ha (fun _ => hstop) hk hin)]
  refine stepsFrom_succ 0 (step_stop ?_ rfl)
  simp [hl]

/-- The rest of a scanline of a RUN with a stop request, its line end, and the end of the RUN (R143). -/
theorem stepsFrom_stopped_line {s : State} {ps : List Pair} {k : Nat} {rest : List Input} (hl : s.life = .running)
    (ha : s.lineActive = true) (hr : s.runMode = true) (hstop : s.stopReq = true) (hp : s.produce = some ps)
    (hk : s.sil.toNat + k = s.timing.spl.toNat)
    (hin : s.inputs = List.replicate (k + 2) (.encoder .accept) ++ rest) :
    stepsFrom (k + 2) s = .next { s with
      scan := s.scan.advance s.cfg.v s.cfg.h, stream := s.stream ++ ps.drop s.sil.toNat, sil := 0#32, lineActive := false,
      life := .ready, runMode := false, stopReq := false, inputs := rest,
      responses := s.responses ++ [⟨some .run, 0x00#8, .empty⟩] } := by
  rw [List.replicate_succ' (n := k + 1), List.append_assoc] at hin
  have hend := (stepsFrom_line_rest hl hp ha hk hin).trans (congrArg Host.Outcome.next (State.lineEnd_run ?_))
  · rw [stepsFrom_add (k + 1) 1 hend]
    exact stepsFrom_succ 0 (step_runStopped hl rfl rfl hr hstop)
  · exact hr

/-- The whole course of such a RUN, from its start: the lines before, the line begun, the STOP in it, and the rest of the line
with the end of the RUN (R142, R143). -/
theorem stepsFrom_stopped_run {s : State} (h : s.Inv) (hl : s.life = .running) (ha : s.lineActive = false)
    (hr : s.runMode = true) (hstop : s.stopReq = false) {n k : Nat} (hk : k ≤ s.timing.spl.toNat) {rest : List Input}
    (hin : s.inputs = (List.replicate n (wholeLine s.timing.spl.toNat)).flatten ++
      (List.replicate (1 + k) (.encoder .accept) ++ .command (encode .stop) ::
        (List.replicate (s.timing.spl.toNat - k + 2) (.encoder .accept) ++ rest))) :
    ∃ (ps : List Pair) (u : State), s.scanlines (n + 1) = some ps ∧ ps.length = (n + 1) * s.timing.spl.toNat ∧
      stepsFrom (n * (s.timing.spl.toNat + 2) + (1 + k + 1)) s = .next u ∧ u.life = .running ∧ u.stopReq = true ∧
      u.stream.length + (s.timing.spl.toNat - k) = s.stream.length + ps.length ∧
      stepsFrom (s.timing.spl.toNat - k + 2) u = .next { s with
        scan := s.scan.advanceBy s.cfg.v s.cfg.h (n + 1), stream := s.stream ++ ps, sil := 0#32, lineActive := false,
        life := .ready, runMode := false, stopReq := false, inputs := rest,
        responses := s.responses ++ [⟨some .stop, 0x00#8, .empty⟩, ⟨some .run, 0x00#8, .empty⟩] } := by
  have hwidth := s.timing.spl.isLt
  obtain ⟨ps, hps, hlen, hinv, hlines⟩ := stepsFrom_lines h hl ha hr hstop n hin
  obtain ⟨line, hline, hlineLen⟩ := hinv.produce_of_open (by simp [State.linesOn, State.lineAt, hl])
  have hcut := stepsFrom_stop_in_line (s := s.linesOn n ps _) hl ha hstop hline hk rfl
  have hsil : (BitVec.ofNat 32 k).toNat = k := by rw [BitVec.toNat_ofNat, Nat.mod_eq_of_lt (by omega)]
  change line.length = s.timing.spl.toNat at hlineLen
  refine ⟨ps ++ line, _, State.scanlines_succ hps hline, ?_, (stepsFrom_add _ _ hlines).trans hcut, hl, rfl, ?_, ?_⟩
  · rw [List.length_append, hlen, hlineLen, Nat.add_one_mul]
  · simp only [State.linesOn, List.length_append, List.length_take, hlineLen]
    omega
  · refine (stepsFrom_stopped_line (ps := line) ?_ ?_ ?_ ?_ ?_ ?_ rfl).trans ?_
    · exact hl
    · rfl
    · exact hr
    · rfl
    · exact hline
    · show (BitVec.ofNat 32 k).toNat + (s.timing.spl.toNat - k) = s.timing.spl.toNat
      omega
    · simp [State.linesOn, State.lineAt, Scan.advanceBy, hsil]

/-- Settles O44: RUN starts the encoder between lines, and its course is that of a RUN with a STOP in a line. -/
theorem runStopsAtTheScanlineBoundary : Obligations.RunStopsAtTheScanlineBoundary := by
  intro s n k es rest h hl hstop hk hes hin
  obtain ⟨hsil, hinactive, hmode, -⟩ := h.ready_facts hl
  have hlines : (List.replicate n (wholeLine s.timing.spl.toNat)).flatten.length = n * (s.timing.spl.toNat + 2) := by
    simp [wholeLine]
  have hcut : es.length - (s.timing.spl.toNat - k + 2) = n * (s.timing.spl.toNat + 2) + (1 + k + 1) + 1 := by
    simp only [hes, List.length_append, List.length_cons, List.length_replicate, hlines]
    omega
  have hall : es.length = n * (s.timing.spl.toNat + 2) + (1 + k + 1) + (s.timing.spl.toNat - k + 2) + 1 := by
    simp only [hes, List.length_append, List.length_cons, List.length_replicate, hlines]
    omega
  rw [hes] at hin
  simp only [List.cons_append, List.append_assoc] at hin
  generalize hturns : (List.replicate n (wholeLine s.timing.spl.toNat)).flatten ++ _ = turns at hin
  have hstart := (step_command hin).trans (exec_run_ready hl)
  obtain ⟨ps, u, hps, hlen, hu, hrunning, hrequest, hstream, hend⟩ :=
    stepsFrom_stopped_run (s := { s with life := .running, runMode := true, inputs := turns })
      ((h.started hl true).outside ..) rfl hinactive rfl hstop hk hturns.symm
  refine ⟨ps, u, hps, hlen, ?_, hrunning, hrequest, hstream, ?_⟩
  · rw [hcut]
    exact (stepsFrom_succ _ hstart).trans hu
  · rw [hall]
    refine (stepsFrom_succ _ hstart).trans ((stepsFrom_add _ _ hu).trans (hend.trans ?_))
    simp [hsil, hinactive, hmode, hl, hstop]

/-! ## Chunks -/

/-- While the invariant holds, the one halt is a sink failure of a pair on offer. -/
theorem State.Inv.encoderStep_halts {s : State} (h : s.Inv) (hl : s.life = .running) {a : SinkAnswer}
    (ht : (s.encoderStep a).life = .halted) : a = .fail ∧ s.lineActive = true := by
  obtain ⟨halloc, -, -, hscan, -⟩ := h.running_facts hl
  rcases s.encoderStep_cases a with ⟨hne, -⟩ | ⟨-, ha, -, ⟨hnone, -⟩ | ⟨p, -, ⟨-, heq⟩ | ⟨hfail, -⟩ | ⟨-, heq⟩⟩⟩ |
    ⟨-, -, -, heq⟩ | ⟨-, -, -, -, heq⟩ | ⟨-, -, -, ⟨hout, -⟩ | ⟨-, heq⟩⟩
  · exact absurd hl hne
  · obtain ⟨p, hp⟩ := State.pairAt_of_in_bounds halloc hscan.row_in_bounds s.sil.toNat
    simp [hp] at hnone
  · simp [heq, hl] at ht
  · exact ⟨hfail, ha⟩
  · simp [heq, hl] at ht
  · rcases s.lineEnd_eq with ⟨-, hend⟩ | ⟨-, hend⟩ <;> simp [heq, hend, hl] at ht
  · simp [heq] at ht
  · simp [hscan.row_in_bounds] at hout
  · simp [heq, hl] at ht

/-- Settles O47: the halt is the sink's, which fails where a chunk begins. -/
theorem chunkedSinkHaltsAtAChunkStart : Obligations.ChunkedSinkHaltsAtAChunkStart := by
  intro s t h hsink hl hstep ht
  obtain ⟨-, a, rest, e, hin, -, rfl⟩ := step_halts hstep (by simp [hl]) ht
  have hturn := Host.Outcome.next.inj ((step_encoder hin).symm.trans hstep)
  have hrest : State.Inv { s with inputs := rest } := h.outside ..
  obtain ⟨rfl, ha⟩ := hrest.encoderStep_halts hl (by rw [hturn]; rfl)
  refine ⟨rfl, Nat.dvd_of_mod_eq_zero ?_⟩
  exact beq_iff_eq.1 (hsink (by rw [hin]; rfl) ha)

/-! ## The stream as scanlines -/

/-- The stream holds whole scanlines and the pairs of the one in flight (R156). -/
def State.StreamWhole (s : State) : Prop := ∃ n : Nat, s.stream.length = n * s.timing.spl.toNat + s.sil.toNat

theorem State.Inv.streamWhole_encoderStep {s : State} (h : s.Inv) (hs : s.StreamWhole) (a : SinkAnswer) :
    (s.encoderStep a).StreamWhole := by
  obtain ⟨n, hn⟩ := hs
  rcases s.encoderStep_cases a with ⟨-, heq⟩ | ⟨hl, ha, hlt, ⟨-, heq⟩ | ⟨p, -, ⟨-, heq⟩ | ⟨-, heq⟩ | ⟨-, heq⟩⟩⟩ |
    ⟨-, -, hge, heq⟩ | ⟨-, -, -, -, heq⟩ | ⟨hl, ha, -, ⟨-, heq⟩ | ⟨-, heq⟩⟩ <;> rw [heq]
  case inr.inl.inr.inl =>
    have hsil : (s.sil + 1#32).toNat = s.sil.toNat + 1 := by bv_omega
    exact ⟨n, by simp [hn, hsil, Nat.add_assoc]⟩
  case inr.inr.inl =>
    have hfull : s.sil.toNat = s.timing.spl.toNat := le_antisymm h.sil_le hge
    have hwhole : s.stream.length = (n + 1) * s.timing.spl.toNat + 0 := by rw [hn, hfull, Nat.add_one_mul, Nat.add_zero]
    rcases s.lineEnd_eq with ⟨-, hend⟩ | ⟨-, hend⟩ <;> rw [hend]
    · exact ⟨n + 1, hwhole⟩
    · exact ⟨n + 1, hwhole⟩
  case inr.inr.inr.inr.inr =>
    have hsil : s.sil = 0#32 := h.between_lines ha (by simp [hl])
    exact ⟨n, by simpa [hsil] using hn⟩
  all_goals exact ⟨n, hn⟩

theorem exec_streamWhole {i : Instr} {s t : State} (hs : s.life ≠ .closed → s.StreamWhole) (hexec : exec i s = .next t)
    (ht : t.life ≠ .closed) : t.StreamWhole := by
  obtain ⟨u, hu, hcases⟩ := exec_cases i s
  obtain rfl : u = t := Host.Outcome.next.inj (hu.symm.trans hexec)
  rcases hcases with ⟨st, p, rfl, -⟩ | ⟨-, -, tm, -, rfl⟩ | ⟨-, -, rfl⟩ | ⟨-, hl, rfl⟩ | ⟨-, hl, rfl⟩ | ⟨-, hl, rfl⟩ |
    ⟨reg, data, cfg, -, -, -, rfl⟩ | ⟨row, col, value, -, hl, -, rfl⟩
  · exact hs ht
  · exact ⟨0, by simp⟩
  · exact absurd rfl ht
  · exact hs (by simp [hl])
  · exact hs (by simp [hl])
  · exact hs hl
  · exact hs ht
  · exact hs hl

/-- Settles O55: only the encoder's turns and INIT touch the count, and each keeps it. -/
theorem streamIsWholeScanlines : Obligations.StreamIsWholeScanlines := by
  intro s t h hs hstep ht
  rcases step_cases hstep with ⟨-, rfl⟩ | ⟨e, rest, hin, hcases⟩
  · exact hs ht
  rcases hcases with ⟨w, i, -, -, hexec⟩ | ⟨w, why, -, -, rfl⟩ | ⟨a, -, rfl⟩ | ⟨row, writes, -, rfl⟩ | ⟨v, -, rfl⟩ | ⟨-, rfl⟩
  · exact exec_streamWhole (s := { s with inputs := rest }) hs hexec ht
  · exact hs ht
  · have hopen : s.life ≠ .closed := fun hc => ht (by simp [State.encoderStep, hc])
    have hrest : State.Inv { s with inputs := rest } := h.outside ..
    exact hrest.streamWhole_encoderStep (hs hopen) a
  · rw [State.getRowAmong_life] at ht
    simpa using hs ht
  · exact hs ht
  · exact absurd rfl ht

/-! ## Safe windows -/

/-- Outside Video scanlines no sample depends on the framebuffer (R107). -/
theorem State.pairAt_of_blank {s : State} (hm : s.scan.mode ≠ .video) (m : Memory) (i : Nat) :
    State.pairAt { s with fb := m } i = s.pairAt i := by
  have hnone := State.elementRead_eq_none (s := s) (i := i) fun hv => absurd hv hm
  have hnone' : State.elementRead { s with fb := m } i = none := hnone
  rw [State.pairAt, State.pairAt, State.videoSample, State.videoSample, hnone, hnone']

theorem State.sampleStep_of_blank {s : State} (hm : s.scan.mode ≠ .video) (m : Memory) (a : SinkAnswer) :
    State.sampleStep { s with fb := m } a = { s.sampleStep a with fb := m } := by
  have hpair : State.pairAt { s with fb := m } s.sil.toNat = s.pairAt s.sil.toNat := State.pairAt_of_blank hm m _
  unfold State.sampleStep
  rw [hpair]
  cases s.pairAt s.sil.toNat with
  | none => rfl
  | some p => cases a <;> rfl

/-- The bounds check reads no element (R117). -/
theorem State.lineStart_with_fb (s : State) (m : Memory) :
    State.lineStart { s with fb := m } = { s.lineStart with fb := m } := by
  have hb : State.rowOutOfBounds { s with fb := m } = s.rowOutOfBounds := rfl
  unfold State.lineStart
  rw [hb]
  cases s.rowOutOfBounds <;> rfl

theorem State.lineEnd_with_fb (s : State) (m : Memory) :
    State.lineEnd { s with fb := m } = { s.lineEnd with fb := m } := by
  rcases s.lineEnd_eq with ⟨hr, heq⟩ | ⟨hr, heq⟩
  · rw [heq, State.lineEnd_run (s := { s with fb := m }) hr]
  · rw [heq, State.lineEnd_pumpOnce (s := { s with fb := m }) hr]
    rfl

/-- Between lines the encoder's step reads no element. -/
theorem State.encoderStep_with_fb_of_boundary {s : State} (hl : s.life = .running) (ha : s.lineActive = false)
    (a : SinkAnswer) (m : Memory) : State.encoderStep { s with fb := m } a = { s.encoderStep a with fb := m } := by
  by_cases hstop : s.runMode = true ∧ s.stopReq = true
  · obtain ⟨hr, hreq⟩ := hstop
    rw [State.encoderStep_runStopped hl ha hr hreq, State.encoderStep_runStopped (s := { s with fb := m }) hl ha hr hreq]
    rfl
  · have hgo : s.runMode = true → s.stopReq = false := by simpa using hstop
    rw [State.encoderStep_lineStart hl ha hgo, State.encoderStep_lineStart (s := { s with fb := m }) hl ha hgo]
    exact s.lineStart_with_fb m

/-- Nor does it in a scanline that is not a Video one. -/
theorem State.encoderStep_with_fb_of_blank {s : State} (hl : s.life = .running) (ha : s.lineActive = true)
    (hm : s.scan.mode ≠ .video) (a : SinkAnswer) (m : Memory) :
    State.encoderStep { s with fb := m } a = { s.encoderStep a with fb := m } := by
  by_cases hs : s.sil.toNat < s.timing.spl.toNat
  · rw [State.encoderStep_sample hl ha hs, State.encoderStep_sample (s := { s with fb := m }) hl ha hs]
    exact State.sampleStep_of_blank hm m a
  · have hend := Nat.le_of_not_lt hs
    rw [State.encoderStep_lineEnd hl ha hend, State.encoderStep_lineEnd (s := { s with fb := m }) hl ha hend]
    exact s.lineEnd_with_fb m

/-- Settles O49: no encoder step, one at a boundary, or one in a scanline that reads nothing. -/
theorem safeWindowsReadNoRow : Obligations.SafeWindowsReadNoRow := by
  intro s a m hsafe
  by_cases hl : s.life = .running
  · by_cases ha : s.lineActive = true
    · have hm : s.scan.mode ≠ .video := by simpa [State.safeWindow, hl, ha] using hsafe
      exact State.encoderStep_with_fb_of_blank hl ha hm a m
    · exact State.encoderStep_with_fb_of_boundary hl (Bool.eq_false_of_not_eq_true ha) a m
  · rw [State.encoderStep_idle hl, State.encoderStep_idle (s := { s with fb := m }) hl]

end Sys2Proof.Machine
end
